-- ==== Sys2Proof/Word.lean ====
section
/-! DEFINITION. The word types of the machine: bytes, 16-bit words, 12-bit addresses as they stand in an opcode,
and the index types of the register file and the keypad. All values are unsigned (spec/00_scope.md section 6). -/

namespace Sys2Proof

/-- An 8-bit unsigned value: a register, a timer, a memory byte (R10, R15, R40). -/
abbrev Byte := BitVec 8

/-- A 16-bit unsigned value: an opcode, `pc`, `I`, a stack entry (R12, R13, R14). -/
abbrev Word := BitVec 16

/-- The 12-bit address field `NNN` of an opcode (R61). -/
abbrev Addr := BitVec 12

/-- A register index, one nibble of an opcode (R10). -/
abbrev Reg := Fin 16

/-- A key index (R21). -/
abbrev Key := Fin 16

/-- `VF` is `V[15]`, the machine's only flag (R11). -/
abbrev VF : Reg := 15

end Sys2Proof
end

