-- ==== Sys2Proof/Config.lean ====
section
/-! DEFINITION. What is fixed for the machine: the constants of spec/00_scope.md R2, the configuration inputs that
State.reset samples, and the free values. -/

namespace Sys2Proof.Config

/-- `MEM_SIZE` (R2): addresses `0x000` to `0xFFF`. -/
abbrev memSize : Nat := 4096

/-- `FONT_BASE` (R2): the font region is `0x050` to `0x09F`. -/
abbrev fontBase : Nat := 0x050

/-- `PROG_BASE` (R2): programs are loaded here and the first STEP fetches here. -/
abbrev progBase : Nat := 0x200

/-- `ROM_MAX` (R2): the longest image LOAD accepts at `PROG_BASE`. -/
abbrev romMax : Nat := 3584

/-- `STACK_DEPTH` (R2). -/
abbrev stackDepth : Nat := 16

/-- `DISP_W` (R2). -/
abbrev dispW : Nat := 64

/-- `DISP_H` (R2). -/
abbrev dispH : Nat := 32

/-- The random byte of a draw: the parameter `RAND`, "a free draw per execution" (R22, D21). It has no value: the
draw of `CXKK` number `n` is `randByte n`, and nothing can be proved of it. DESIGN CHOICE, safe: log 2. -/
opaque randByte : Nat → Byte

/-- The `cosmac_mode` input that `State.reset` samples. DESIGN CHOICE, unsafe: log 5. A RESET event brings its own
value, and statements hold for both. -/
abbrev resetCosmac : Bool := false

/-- The `amiga_mode` input that `State.reset` samples. DESIGN CHOICE, unsafe: log 5. -/
abbrev resetAmiga : Bool := false

end Sys2Proof.Config
end

