-- ==== Sys2Proof/Syntax.lean ====
section
/-! DEFINITION. The syntax of the 34 instructions, one constructor per row of spec/opcode_table.json, in the table's
order (spec/30_encoding.md R64). Constructor names follow the customary mnemonics of R68 (log 37); each docstring
gives the pattern, which is the row's own name. -/

namespace Sys2Proof

/-- An instruction with its operand fields (R61, R62). Register fields are nibbles, `kk` is the 8-bit immediate, `nnn`
the 12-bit address, `n` the sprite height. -/
inductive Instr where
  /-- `00E0`, CLS (R130). -/
  | cls
  /-- `00EE`, RET (R80). -/
  | ret
  /-- `1NNN`, JP addr (R81). -/
  | jp (nnn : Addr)
  /-- `2NNN`, CALL addr (R82). -/
  | call (nnn : Addr)
  /-- `3XKK`, SE Vx, byte (R83). -/
  | seImm (x : Reg) (kk : Byte)
  /-- `4XKK`, SNE Vx, byte (R84). -/
  | sneImm (x : Reg) (kk : Byte)
  /-- `5XY0`, SE Vx, Vy (R85). -/
  | seReg (x y : Reg)
  /-- `6XKK`, LD Vx, byte (R100). -/
  | ldImm (x : Reg) (kk : Byte)
  /-- `7XKK`, ADD Vx, byte (R101). -/
  | addImm (x : Reg) (kk : Byte)
  /-- `8XY0`, LD Vx, Vy (R102). -/
  | ldReg (x y : Reg)
  /-- `8XY1`, OR Vx, Vy (R103). -/
  | orReg (x y : Reg)
  /-- `8XY2`, AND Vx, Vy (R104). -/
  | andReg (x y : Reg)
  /-- `8XY3`, XOR Vx, Vy (R105). -/
  | xorReg (x y : Reg)
  /-- `8XY4`, ADD Vx, Vy (R106). -/
  | addReg (x y : Reg)
  /-- `8XY5`, SUB Vx, Vy (R107). -/
  | subReg (x y : Reg)
  /-- `8XY6`, SHR Vx, Vy (R108). -/
  | shr (x y : Reg)
  /-- `8XY7`, SUBN Vx, Vy (R109). -/
  | subnReg (x y : Reg)
  /-- `8XYE`, SHL Vx, Vy (R110). -/
  | shl (x y : Reg)
  /-- `9XY0`, SNE Vx, Vy (R86). -/
  | sneReg (x y : Reg)
  /-- `ANNN`, LD I, addr (R120). -/
  | ldI (nnn : Addr)
  /-- `BNNN`, JP V0, addr or JP Vx, addr (R87). The table gives it the overlapping fields `NNN = op[11:0]` and
  `x = op[11:8]`; WellFormed says they agree (log 34). -/
  | jpOffset (nnn : Addr) (x : Reg)
  /-- `CXKK`, RND Vx, byte (R111). -/
  | rnd (x : Reg) (kk : Byte)
  /-- `DXYN`, DRW Vx, Vy, nibble (R131). -/
  | drw (x y : Reg) (n : Fin 16)
  /-- `EX9E`, SKP Vx (R140). -/
  | skp (x : Reg)
  /-- `EXA1`, SKNP Vx (R141). -/
  | sknp (x : Reg)
  /-- `FX07`, LD Vx, DT (R143). -/
  | readDT (x : Reg)
  /-- `FX0A`, LD Vx, K (R142). -/
  | waitKey (x : Reg)
  /-- `FX15`, LD DT, Vx (R144). -/
  | setDT (x : Reg)
  /-- `FX18`, LD ST, Vx (R145). -/
  | setST (x : Reg)
  /-- `FX1E`, ADD I, Vx (R121). -/
  | addI (x : Reg)
  /-- `FX29`, LD F, Vx (R122). -/
  | ldFont (x : Reg)
  /-- `FX33`, LD B, Vx (R123). -/
  | storeBcd (x : Reg)
  /-- `FX55`, LD [I], Vx (R124). -/
  | storeRegs (x : Reg)
  /-- `FX65`, LD Vx, [I] (R125). -/
  | loadRegs (x : Reg)
  deriving DecidableEq, Repr

end Sys2Proof
end

