-- ==== Sys2Proof/WellFormed.lean ====
section
/-! DEFINITION. Which instruction terms stand for a word. Every field has exactly the width of its bits in the opcode
(spec/30_encoding.md R61), so the one thing left to check is `BNNN`, whose two fields are views of the same bits. -/

namespace Sys2Proof

/-- The check, for every constructor: `BNNN`'s `x` is the top nibble of its `NNN` (R61, R87); no other instruction has
overlapping fields. -/
def Instr.wf : Instr → Bool
  | .cls => true
  | .ret => true
  | .jp _ => true
  | .call _ => true
  | .seImm _ _ => true
  | .sneImm _ _ => true
  | .seReg _ _ => true
  | .ldImm _ _ => true
  | .addImm _ _ => true
  | .ldReg _ _ => true
  | .orReg _ _ => true
  | .andReg _ _ => true
  | .xorReg _ _ => true
  | .addReg _ _ => true
  | .subReg _ _ => true
  | .shr _ _ => true
  | .subnReg _ _ => true
  | .shl _ _ => true
  | .sneReg _ _ => true
  | .ldI _ => true
  | .jpOffset nnn x => x.val == nnn.toNat / 256
  | .rnd _ _ => true
  | .drw _ _ _ => true
  | .skp _ => true
  | .sknp _ => true
  | .readDT _ => true
  | .waitKey _ => true
  | .setDT _ => true
  | .setST _ => true
  | .addI _ => true
  | .ldFont _ => true
  | .storeBcd _ => true
  | .storeRegs _ => true
  | .loadRegs _ => true

/-- A well-formed instruction: one that some word encodes. -/
abbrev Instr.WellFormed (i : Instr) : Prop := i.wf = true

end Sys2Proof
end

