-- ==== Sys2Proof/Decode.lean ====
section
/-! DEFINITION. The decoder and the encoder, both written from the opcode map of spec/30_encoding.md R64. The decoder is
the map itself: a list of rows, each a mask, the value the masked word must have, and the fields to read. -/

namespace Sys2Proof

/-- Why bytes are no instruction. -/
inductive Reject where
  /-- The word matches no row of R64: the machine raises InvalidOpcode (R65, R151). -/
  | invalidOpcode (op : Word)
  /-- Fewer than two bytes: no word to decode. A fetch never gives this (R43, R66); it keeps `decode` total. -/
  | truncated
  deriving DecidableEq, Repr

/-! The operand fields of an opcode (R61). -/

/-- `x = op[11:8]`. -/
def fieldX (op : Word) : Reg := (op.extractLsb' 8 4).toFin

/-- `y = op[7:4]`. -/
def fieldY (op : Word) : Reg := (op.extractLsb' 4 4).toFin

/-- `N = op[3:0]`. -/
def fieldN (op : Word) : Fin 16 := (op.extractLsb' 0 4).toFin

/-- `KK = op[7:0]`. -/
def fieldKK (op : Word) : Byte := op.extractLsb' 0 8

/-- `NNN = op[11:0]`. -/
def fieldNNN (op : Word) : Addr := op.extractLsb' 0 12

/-- One row of the opcode map: a word is this instruction exactly when `op & mask = pattern` (R64). -/
structure OpcodeRow where
  pattern : Word
  mask    : Word
  build   : Word → Instr

/-- Rows 1 to 9 of R64. -/
def rowsFlow : List OpcodeRow :=
  [ ⟨0x00E0, 0xFFFF, fun _ => .cls⟩,
    ⟨0x00EE, 0xFFFF, fun _ => .ret⟩,
    ⟨0x1000, 0xF000, fun op => .jp (fieldNNN op)⟩,
    ⟨0x2000, 0xF000, fun op => .call (fieldNNN op)⟩,
    ⟨0x3000, 0xF000, fun op => .seImm (fieldX op) (fieldKK op)⟩,
    ⟨0x4000, 0xF000, fun op => .sneImm (fieldX op) (fieldKK op)⟩,
    ⟨0x5000, 0xF00F, fun op => .seReg (fieldX op) (fieldY op)⟩,
    ⟨0x6000, 0xF000, fun op => .ldImm (fieldX op) (fieldKK op)⟩,
    ⟨0x7000, 0xF000, fun op => .addImm (fieldX op) (fieldKK op)⟩ ]

/-- Rows 10 to 18 of R64. -/
def rowsAlu : List OpcodeRow :=
  [ ⟨0x8000, 0xF00F, fun op => .ldReg (fieldX op) (fieldY op)⟩,
    ⟨0x8001, 0xF00F, fun op => .orReg (fieldX op) (fieldY op)⟩,
    ⟨0x8002, 0xF00F, fun op => .andReg (fieldX op) (fieldY op)⟩,
    ⟨0x8003, 0xF00F, fun op => .xorReg (fieldX op) (fieldY op)⟩,
    ⟨0x8004, 0xF00F, fun op => .addReg (fieldX op) (fieldY op)⟩,
    ⟨0x8005, 0xF00F, fun op => .subReg (fieldX op) (fieldY op)⟩,
    ⟨0x8006, 0xF00F, fun op => .shr (fieldX op) (fieldY op)⟩,
    ⟨0x8007, 0xF00F, fun op => .subnReg (fieldX op) (fieldY op)⟩,
    ⟨0x800E, 0xF00F, fun op => .shl (fieldX op) (fieldY op)⟩ ]

/-- Rows 19 to 25 of R64. -/
def rowsMixed : List OpcodeRow :=
  [ ⟨0x9000, 0xF00F, fun op => .sneReg (fieldX op) (fieldY op)⟩,
    ⟨0xA000, 0xF000, fun op => .ldI (fieldNNN op)⟩,
    ⟨0xB000, 0xF000, fun op => .jpOffset (fieldNNN op) (fieldX op)⟩,
    ⟨0xC000, 0xF000, fun op => .rnd (fieldX op) (fieldKK op)⟩,
    ⟨0xD000, 0xF000, fun op => .drw (fieldX op) (fieldY op) (fieldN op)⟩,
    ⟨0xE09E, 0xF0FF, fun op => .skp (fieldX op)⟩,
    ⟨0xE0A1, 0xF0FF, fun op => .sknp (fieldX op)⟩ ]

/-- Rows 26 to 34 of R64. -/
def rowsFx : List OpcodeRow :=
  [ ⟨0xF007, 0xF0FF, fun op => .readDT (fieldX op)⟩,
    ⟨0xF00A, 0xF0FF, fun op => .waitKey (fieldX op)⟩,
    ⟨0xF015, 0xF0FF, fun op => .setDT (fieldX op)⟩,
    ⟨0xF018, 0xF0FF, fun op => .setST (fieldX op)⟩,
    ⟨0xF01E, 0xF0FF, fun op => .addI (fieldX op)⟩,
    ⟨0xF029, 0xF0FF, fun op => .ldFont (fieldX op)⟩,
    ⟨0xF033, 0xF0FF, fun op => .storeBcd (fieldX op)⟩,
    ⟨0xF055, 0xF0FF, fun op => .storeRegs (fieldX op)⟩,
    ⟨0xF065, 0xF0FF, fun op => .loadRegs (fieldX op)⟩ ]

/-- The 34 rows of R64, in its order. -/
def opcodeTable : List OpcodeRow := rowsFlow ++ rowsAlu ++ rowsMixed ++ rowsFx

/-- Whether the word selects this row (R64). -/
def OpcodeRow.hits (r : OpcodeRow) (op : Word) : Bool := op &&& r.mask == r.pattern

/-- The decoder on a 16-bit opcode: total, one instruction or InvalidOpcode (R64, R65). No mode bit changes it (R60). -/
def decodeWord (op : Word) : Except Reject Instr :=
  match opcodeTable.find? (·.hits op) with
  | some r => .ok (r.build op)
  | none => .error (.invalidOpcode op)

/-- The opcode of two consecutive bytes, first byte high (R44). -/
def wordOfBytes (b0 b1 : Byte) : Word := b0 ++ b1

/-- The two bytes of an opcode as memory holds them, first byte high (R44). -/
def bytesOfWord (op : Word) : List Byte := [op.extractLsb' 8 8, op.extractLsb' 0 8]

/-- The decoder on bytes: the first two make the instruction, the rest is returned. -/
def decode : List Byte → Except Reject (Instr × List Byte)
  | b0 :: b1 :: rest =>
    match decodeWord (wordOfBytes b0 b1) with
    | .ok i => .ok (i, rest)
    | .error e => .error e
  | [_] => .error .truncated
  | [] => .error .truncated

/-! The encoder: each instruction's word as its rule writes it, `0x8004 | x << 8 | y << 4` and so on. -/

/-- A nibble placed at a bit position. -/
def nibbleAt (v : Fin 16) (pos : Nat) : Word := BitVec.ofNat 16 v.val <<< pos

/-- The words of the formats XY (R62). -/
def encodeXY (pattern : Word) (x y : Reg) : Word := pattern ||| nibbleAt x 8 ||| nibbleAt y 4

/-- The words of the format XKK (R62). -/
def encodeXKK (pattern : Word) (x : Reg) (kk : Byte) : Word := pattern ||| nibbleAt x 8 ||| kk.setWidth 16

/-- The words of the format NNN (R62). -/
def encodeNNN (pattern : Word) (nnn : Addr) : Word := pattern ||| nnn.setWidth 16

/-- The words of the format X (R62). -/
def encodeX (pattern : Word) (x : Reg) : Word := pattern ||| nibbleAt x 8

/-- The word of an instruction (R64 and the "Encoding" of its own rule). -/
def encode : Instr → Word
  | .cls => 0x00E0
  | .ret => 0x00EE
  | .jp nnn => encodeNNN 0x1000 nnn
  | .call nnn => encodeNNN 0x2000 nnn
  | .seImm x kk => encodeXKK 0x3000 x kk
  | .sneImm x kk => encodeXKK 0x4000 x kk
  | .seReg x y => encodeXY 0x5000 x y
  | .ldImm x kk => encodeXKK 0x6000 x kk
  | .addImm x kk => encodeXKK 0x7000 x kk
  | .ldReg x y => encodeXY 0x8000 x y
  | .orReg x y => encodeXY 0x8001 x y
  | .andReg x y => encodeXY 0x8002 x y
  | .xorReg x y => encodeXY 0x8003 x y
  | .addReg x y => encodeXY 0x8004 x y
  | .subReg x y => encodeXY 0x8005 x y
  | .shr x y => encodeXY 0x8006 x y
  | .subnReg x y => encodeXY 0x8007 x y
  | .shl x y => encodeXY 0x800E x y
  | .sneReg x y => encodeXY 0x9000 x y
  | .ldI nnn => encodeNNN 0xA000 nnn
  | .jpOffset nnn _ => encodeNNN 0xB000 nnn
  | .rnd x kk => encodeXKK 0xC000 x kk
  | .drw x y n => encodeXY 0xD000 x y ||| nibbleAt n 0
  | .skp x => encodeX 0xE09E x
  | .sknp x => encodeX 0xE0A1 x
  | .readDT x => encodeX 0xF007 x
  | .waitKey x => encodeX 0xF00A x
  | .setDT x => encodeX 0xF015 x
  | .setST x => encodeX 0xF018 x
  | .addI x => encodeX 0xF01E x
  | .ldFont x => encodeX 0xF029 x
  | .storeBcd x => encodeX 0xF033 x
  | .storeRegs x => encodeX 0xF055 x
  | .loadRegs x => encodeX 0xF065 x

/-- The host's question: which instruction the decoder reads from the word `w` whose low `nbits` bits the opcode table
numbers. An instruction is one 16-bit word, stored first byte high. -/
def decodeTableWord (nbits w : Nat) : Option Instr :=
  match decode (bytesOfWord (BitVec.ofNat 16 (w % 2 ^ nbits))) with
  | .ok (i, _) => some i
  | .error _ => none

end Sys2Proof
end

