-- ==== Sys2Proof/Machine/State.lean ====
section
/-! DEFINITION. The state of the machine as plain data: everything spec/10_state.md and spec/20_memory.md give it, and
three fields of the model's own (started, draws, schedule; logs 9, 2 and 1). -/

namespace Sys2Proof.Machine

/-- The causes the `fault` register can hold besides NONE; the list is closed (R20, R150). -/
inductive FaultCause where
  /-- The fetched word matches no row of the opcode map (R151). -/
  | invalidOpcode
  /-- A `2NNN` with 16 entries on the stack (R152). -/
  | stackOverflow
  /-- A `00EE` with an empty stack (R153). -/
  | stackUnderflow
  /-- A LOAD that does not fit below `0x1000` (R154). -/
  | romTooLarge
  deriving DecidableEq, Repr

/-- The events of the machine, each atomic; the host sends them (R5). -/
inductive Event where
  /-- RESET: the two configuration inputs (R180). -/
  | reset (cosmac amiga : Bool)
  /-- LOAD: host bytes and the offset they are copied to (R181). -/
  | load (bytes : List Byte) (offset : Nat)
  /-- STEP: fetch, decode and execute exactly one instruction (R66). Its random byte is the free draw of R22. -/
  | step
  /-- TICK: one 60 Hz timer step (R161). -/
  | tick
  /-- SET_KEY: a key goes down or up (R163). -/
  | setKey (k : Key) (pressed : Bool)
  /-- TAKE_RENDER: read and clear `render_pending` (R164). -/
  | takeRender
  deriving DecidableEq, Repr

/-- Why a step has no next state. -/
inductive Fault where
  /-- Raised by the events STEP, TICK and LOAD when `fault` holds a cause: the core is halted and these events have no
  transition until RESET (R20, R156, U5). Safe: the model stops where the machine's run has been aborted. Log 10. -/
  | halted (cause : FaultCause)
  deriving DecidableEq, Repr

/-- What the model gives no meaning. -/
inductive Refusal where
  /-- An arm of exec with no meaning yet. No arm is one now. Safe. -/
  | notModelled (mnemonic : String)
  /-- Raised by the event LOAD after the first STEP: LOAD exists "only before the first STEP" (R181), and a host that
  writes mid-run has no move (U17, R187). Safe. Log 9. -/
  | loadAfterFirstStep
  deriving DecidableEq, Repr

/-- Memory: the bytes that differ from what an unlisted address reads as, at rising addresses (Memory.wf in Ops.lean). -/
abbrev Memory := List Host.Cell

/-- What an address that is not listed reads as: memory is all `0x00` after RESET (R27, R180, D12; DESIGN CHOICE of the
spec, unsafe: log 6). -/
abbrev Memory.unlisted : Byte := 0

/-- The display buffer: 32 rows from the top, each 64 pixels from the left (R16). -/
abbrev Display := Vector (Vector Bool Config.dispW) Config.dispH

/-- The machine. Fields in the order of spec/10_state.md R10 to R21; the last three are the model's own. -/
structure State where
  /-- `V[0..15]` (R10); `VF = V[15]` is the only flag (R11). -/
  V : Vector Byte 16
  /-- The index register (R12). -/
  I : Word
  /-- The program counter: the next instruction between events, that plus 2 inside a STEP (R13). -/
  pc : Word
  /-- `stack[0..15]` (R14); entries at and above `sp` are stale and nothing reads them (log 4). -/
  stack : Vector Word Config.stackDepth
  /-- The number of valid stack entries, 0 to 16 (R14; log 35). -/
  sp : Fin (Config.stackDepth + 1)
  /-- The delay timer (R15). -/
  DT : Byte
  /-- The sound timer (R15). -/
  ST : Byte
  /-- The 4096-byte memory (R40). -/
  mem : Memory
  /-- The display buffer (R16). -/
  display : Display
  /-- `render_pending` (R17). -/
  renderPending : Bool
  /-- The key-wait latch (R18). -/
  latch : Option Key
  /-- `keys[0..15]`, 1 = pressed (R21). -/
  keys : Vector Bool 16
  /-- `cosmac_mode`, sampled by RESET (R19). -/
  cosmacMode : Bool
  /-- `amiga_mode`, sampled by RESET (R19). -/
  amigaMode : Bool
  /-- `fault`: NONE or a cause (R20). -/
  fault : Option FaultCause
  /-- The model's own: a STEP has happened since RESET, so LOAD no longer exists (R181, R182; log 9). -/
  started : Bool
  /-- The model's own: how many random draws have been made (log 2). -/
  draws : Nat
  /-- The model's own: the events the host is about to send, oldest first (SCHEDULE of R4; log 1). -/
  schedule : List Event
  deriving DecidableEq, Repr

/-- The machine right after a RESET with these configuration inputs (R27, R180): `pc` at the entry point and everything
else zero, empty or false (D11; log 3). The stack's contents are unspecified there (log 4). -/
def State.resetWith (cosmac amiga : Bool) : State where
  V := Vector.replicate 16 0
  I := 0
  pc := 0x0200
  stack := Vector.replicate 16 0
  sp := 0
  DT := 0
  ST := 0
  mem := []
  display := Vector.replicate 32 (Vector.replicate 64 false)
  renderPending := false
  latch := none
  keys := Vector.replicate 16 false
  cosmacMode := cosmac
  amigaMode := amiga
  fault := none
  started := false
  draws := 0
  schedule := []

/-- The machine right after reset (R27), with the configuration inputs of log 5. -/
def State.reset : State := State.resetWith Config.resetCosmac Config.resetAmiga

end Sys2Proof.Machine
end

