-- ==== Sys2Proof/Machine/Ops.lean ====
section
/-! DEFINITION. The shared operations: the canonical memory, the accessors of every piece of state, the call stack, the
display, the fetch, taking a fault and the RESET that is its only return, and the outputs. -/

namespace Sys2Proof.Machine

/-! ## Memory (spec/20_memory.md) -/

/-- The canonical form: addresses strictly rising, all inside the 4096 bytes (R40), none listed that reads as an
unlisted one, so that equal memories are equal lists. -/
abbrev Memory.wf (m : Memory) : Prop :=
  m.Pairwise (fun c d => c.1 < d.1) ∧ ∀ c ∈ m, c.1 < Config.memSize ∧ c.2 ≠ Memory.unlisted

/-- The byte at an address. -/
def Memory.read : Memory → Nat → Byte
  | [], _ => Memory.unlisted
  | (b, w) :: rest, a => if b = a then w else Memory.read rest a

/-- The memory with one more cell in front, unless the cell would read as an unlisted one. -/
def Memory.consCell (a : Nat) (v : Byte) (m : Memory) : Memory :=
  if v = Memory.unlisted then m else (a, v) :: m

/-- The memory with the byte at an address replaced; it keeps the canonical form. -/
def Memory.write : Memory → Nat → Byte → Memory
  | [], a, v => Memory.consCell a v []
  | (b, w) :: rest, a, v =>
    if a < b then Memory.consCell a v ((b, w) :: rest)
    else if a = b then Memory.consCell a v rest
    else (b, w) :: Memory.write rest a v

/-- `trunc_12`: the low 12 bits of a non-negative integer, the only part of an address a memory access uses (R43). -/
def trunc12 (a : Nat) : Nat := a % Config.memSize

/-- `MemRead(addr, 1)` (R43). -/
def State.readByte (s : State) (addr : Nat) : Byte := Memory.read s.mem (trunc12 addr)

/-- `MemWrite(addr, 1, v)` (R43). -/
def State.writeByte (s : State) (addr : Nat) (v : Byte) : State :=
  { s with mem := Memory.write s.mem (trunc12 addr) v }

/-- Single-byte writes at rising addresses from `addr` on (R45, R48), each address truncated on its own (R43). -/
def State.storeBytes (s : State) (addr : Nat) : List Byte → State
  | [] => s
  | b :: bs => State.storeBytes (s.writeByte addr b) (addr + 1) bs

/-! ## Registers and flags of state (spec/10_state.md) -/

/-- A read of `V[x]` (R10). -/
def State.reg (s : State) (x : Reg) : Byte := s.V[x]

/-- `V[x] <- v` (R10): no register is hard-wired. -/
def State.setReg (s : State) (x : Reg) (v : Byte) : State := { s with V := s.V.set x v }

/-- All sixteen registers at once, for `FX65` (R125). -/
def State.setRegs (s : State) (vs : Vector Byte 16) : State := { s with V := vs }

/-- `I <- v` (R12). -/
def State.setI (s : State) (v : Word) : State := { s with I := v }

/-- `pc <- target` (R13). -/
def State.setPc (s : State) (v : Word) : State := { s with pc := v }

/-- `DT <- v` (R15). -/
def State.setDT (s : State) (v : Byte) : State := { s with DT := v }

/-- `ST <- v` (R15). -/
def State.setST (s : State) (v : Byte) : State := { s with ST := v }

/-- The display buffer replaced (R16). -/
def State.setDisplay (s : State) (d : Display) : State := { s with display := d }

/-- `render_pending <- b` (R17). -/
def State.setRender (s : State) (b : Bool) : State := { s with renderPending := b }

/-- `latch <- l` (R18). -/
def State.setLatch (s : State) (l : Option Key) : State := { s with latch := l }

/-- `keys[k] <- pressed` (R21); SET_KEY alone does it. -/
def State.setKey (s : State) (k : Key) (pressed : Bool) : State := { s with keys := s.keys.set k pressed }

/-- A read of `keys[k]` (R21). -/
def State.key (s : State) (k : Key) : Bool := s.keys[k]

/-- `fault <- c` (R20). -/
def State.setFault (s : State) (c : Option FaultCause) : State := { s with fault := c }

/-- The model's own field `started` (log 9). -/
def State.setStarted (s : State) (b : Bool) : State := { s with started := b }

/-- The model's own field `draws` (log 2). -/
def State.setDraws (s : State) (n : Nat) : State := { s with draws := n }

/-- The model's own field `schedule` (log 1). -/
def State.setSchedule (s : State) (es : List Event) : State := { s with schedule := es }

/-- The random byte of the draw that comes next: the free value of R22 at this count (log 2). -/
def State.rand (s : State) : Byte := Config.randByte s.draws

/-- The draw is spent. -/
def State.nextDraw (s : State) : State := s.setDraws (s.draws + 1)

/-! ## The program counter -/

/-- `skip`: `pc <- trunc_16(pc + 2)`, not masked to 12 bits (R88; D4, log 12). -/
def State.skip (s : State) : State := s.setPc (s.pc + 2)

/-- A skip under a condition. -/
def State.skipIf (s : State) (c : Bool) : State := if c then s.skip else s

/-- `pc <- trunc_16(pc - 2)`: back at the instruction being executed (R142; D4, log 12). -/
def State.respin (s : State) : State := s.setPc (s.pc - 2)

/-! ## The call stack (R14) -/

/-- The stack and its depth replaced together. -/
def State.setStack (s : State) (stack : Vector Word Config.stackDepth) (sp : Fin (Config.stackDepth + 1)) : State :=
  { s with stack := stack, sp := sp }

/-- `push(v)`: none when `sp = 16`, with nothing written. -/
def State.push (s : State) (v : Word) : Option State :=
  if h : s.sp.val < Config.stackDepth then
    some (s.setStack (s.stack.set s.sp.val v h) ⟨s.sp.val + 1, Nat.succ_lt_succ h⟩)
  else none

/-- `pop()`: the entry and the state after it; none when `sp = 0`, with nothing written. The entry stays in the stack as
a stale value. -/
def State.pop (s : State) : Option (Word × State) :=
  if h : 0 < s.sp.val then
    have lt : s.sp.val - 1 < Config.stackDepth := by have := s.sp.isLt; omega
    some (s.stack[s.sp.val - 1], s.setStack s.stack ⟨s.sp.val - 1, Nat.lt_succ_of_lt lt⟩)
  else none

/-! ## The display (R16) -/

/-- `display[y][x]`. -/
def Display.get (d : Display) (y : Fin 32) (x : Fin 64) : Bool := d[y][x]

/-- `display[y][x] <- display[y][x] ^ 1`. -/
def Display.toggle (d : Display) (y : Fin 32) (x : Fin 64) : Display := d.set y (d[y].set x (!d[y][x]))

/-- The all-zero display. -/
def Display.clear : Display := Vector.replicate 32 (Vector.replicate 64 false)

/-! ## Fetch (R66) -/

/-- The two bytes at `trunc_12(pc)` and `trunc_12(trunc_16(pc + 1))`, the first byte first (R44, R66). -/
def State.fetchBytes (s : State) : List Byte := [s.readByte s.pc.toNat, s.readByte (s.pc + 1).toNat]

/-- The advance of the fetch, before dispatch: `pc <- trunc_16(pc + 2)` (R66). It also notes that a STEP has happened
(log 9). -/
def State.advance (s : State) : State := (s.setPc (s.pc + 2)).setStarted true

/-! ## Faults and RESET (spec/60_exceptions.md, spec/70_reset_and_hazards.md) -/

/-- `raise F()` inside a STEP: every write of the STEP is discarded, which for the three instruction faults is the
advance of the fetch alone (each rule tests its condition first), and `fault` takes the cause (R155, R156). Control goes
nowhere: there is no vector, no saved register, no mode. D9, log 10. -/
def State.raise (s : State) (c : FaultCause) : State := (s.setPc (s.pc - 2)).setFault (some c)

/-- The RESET event, the only way out of a fault (R157, R180): the machine afresh with the given inputs. The host's
remaining schedule and the count of random draws are no state of the core and go on (log 33). -/
def State.resetEvent (s : State) (cosmac amiga : Bool) : State :=
  ((State.resetWith cosmac amiga).setDraws s.draws).setSchedule s.schedule

/-! ## Outputs (R23) -/

/-- `display_snapshot()`. -/
def State.displaySnapshot (s : State) : Display := s.display

/-- `sound_active()`: 1 exactly when `ST != 0` (D31, log 30). -/
def State.soundActive (s : State) : Bool := s.ST != 0

/-- The code of a fault on the 3-bit output `fault` (R150; D10, log 11). -/
def faultCode : Option FaultCause → BitVec 3
  | none => 0
  | some .invalidOpcode => 1
  | some .stackOverflow => 2
  | some .stackUnderflow => 3
  | some .romTooLarge => 4

end Sys2Proof.Machine
end

