-- ==== Sys2Proof/Machine/Operands.lean ====
section
/-! DEFINITION. The operand forms: what an instruction reads besides a plain register or an immediate. -/

namespace Sys2Proof.Machine

/-- The low nibble of a register, as a key index or a glyph number: `V[x] & 0x0F` (R122, R140, R141). -/
def lowNibble (v : Byte) : Fin 16 := ⟨v.toNat % 16, Nat.mod_lt _ (by decide)⟩

/-- The address of byte `k` of a block at `I`, before truncation: `I + k`, exact (R43, R45). -/
def State.blockAddr (s : State) (k : Nat) : Nat := s.I.toNat + k

/-- The value the shifts move: `V[y]` in COSMAC mode, `V[x]` otherwise (R108, R110). -/
def State.shiftSource (s : State) (x y : Reg) : Byte := if s.cosmacMode then s.reg y else s.reg x

/-- The target of `BNNN`: `trunc_12(NNN + off)`, where `off` is `V[0]` in COSMAC mode and `V[x]` otherwise (R87; D6,
log 14). -/
def State.offsetTarget (s : State) (nnn : Addr) (x : Reg) : Word :=
  let off := if s.cosmacMode then s.reg 0 else s.reg x
  BitVec.ofNat 16 (trunc12 (nnn.toNat + off.toNat))

/-- The address of a font glyph: `0x0050 + (v & 0x0F) * 5` (R122). -/
def glyphAddr (v : Byte) : Word := BitVec.ofNat 16 (Config.fontBase + (lowNibble v).val * 5)

/-- The registers `V[0]`, …, `V[x]` in ascending order (R124). -/
def State.regsUpTo (s : State) (x : Reg) : List Byte := s.V.toList.take (x.val + 1)

/-- The register file after `V[i] <- MemRead(I + i)` for `i = 0..x` (R125). `I` is no register, so the order of the
loads does not show. -/
def State.regsLoaded (s : State) (x : Reg) : Vector Byte 16 :=
  Vector.ofFn fun i : Fin 16 => if i.val ≤ x.val then s.readByte (s.blockAddr i.val) else s.reg i

/-- `I` after a block copy of `x + 1` bytes: it advances in COSMAC mode only, masked to 12 bits (R124, R125; D7,
log 15). -/
def State.blockNextI (s : State) (x : Reg) : Word :=
  if s.cosmacMode then BitVec.ofNat 16 (trunc12 (s.blockAddr (x.val + 1))) else s.I

/-- The three decimal digits of a byte, hundreds first (R123). -/
def bcdDigits (v : Byte) : List Byte :=
  [BitVec.ofNat 8 (v.toNat / 100), BitVec.ofNat 8 (v.toNat / 10 % 10), BitVec.ofNat 8 (v.toNat % 10)]

/-- `lowest_pressed(keys)`: the least pressed key, by an ascending scan (R142). -/
def State.lowestPressed (s : State) : Option Key := (List.finRange 16).find? fun k => s.key k

end Sys2Proof.Machine
end

