-- ==== Sys2Proof/Machine/Flags.lean ====
section
/-! DEFINITION. The values of the flag `VF` (spec/10_state.md R11) and the order in which a result and a flag are
written (spec/41_alu.md R113). -/

namespace Sys2Proof.Machine

/-- A flag is the byte `0x01` or `0x00`. -/
def flagByte (b : Bool) : Byte := if b then 1 else 0

/-- The carry of an addition: the exact sum exceeds 255 (R106, R112). -/
def carryFlag (a b : Byte) : Byte := flagByte (decide (255 < a.toNat + b.toNat))

/-- NOT-borrow of `a - b`: 1 when `a >= b`, equality included (R107, R109, R112). -/
def noBorrowFlag (a b : Byte) : Byte := flagByte (decide (b.toNat ≤ a.toNat))

/-- The bit a right shift moves out, `v[0]` (R108). -/
def shiftedOutLow (v : Byte) : Byte := flagByte (v.getLsbD 0)

/-- The bit a left shift moves out, `v[7]` (R110). -/
def shiftedOutHigh (v : Byte) : Byte := flagByte (v.getLsbD 7)

/-- `V[x]` takes the result first and `VF` the flag last, so with `x = 0xF` the flag stays (R113; D13, log 17). -/
def State.setResultFlag (s : State) (x : Reg) (r flag : Byte) : State := (s.setReg x r).setReg VF flag

/-- The logic instructions: `V[x]` takes the result, then in COSMAC mode `VF` is forced to 0 (R103, R104, R105). -/
def State.setLogic (s : State) (x : Reg) (r : Byte) : State :=
  if s.cosmacMode then s.setResultFlag x r 0 else s.setReg x r

end Sys2Proof.Machine
end

