-- ==== Sys2Proof/Machine/Alu.lean ====
section
/-! DEFINITION. The meanings of the register, arithmetic, logic, shift and random instructions (spec/41_alu.md). All of
them complete, and `pc` is already the address after the instruction (R66). -/

namespace Sys2Proof.Machine

/-- `6XKK`: `V[x] <- KK` (R100). -/
def execLdImm (x : Reg) (kk : Byte) (s : State) : Host.Outcome State Fault Refusal := .next (s.setReg x kk)

/-- `7XKK`: `V[x] <- trunc_8(V[x] + KK)`, no flag (R101). -/
def execAddImm (x : Reg) (kk : Byte) (s : State) : Host.Outcome State Fault Refusal :=
  .next (s.setReg x (s.reg x + kk))

/-- `8XY0`: `V[x] <- V[y]` (R102). -/
def execLdReg (x y : Reg) (s : State) : Host.Outcome State Fault Refusal := .next (s.setReg x (s.reg y))

/-- `8XY1`: bitwise OR (R103). -/
def execOrReg (x y : Reg) (s : State) : Host.Outcome State Fault Refusal := .next (s.setLogic x (s.reg x ||| s.reg y))

/-- `8XY2`: bitwise AND (R104). -/
def execAndReg (x y : Reg) (s : State) : Host.Outcome State Fault Refusal := .next (s.setLogic x (s.reg x &&& s.reg y))

/-- `8XY3`: bitwise XOR (R105). -/
def execXorReg (x y : Reg) (s : State) : Host.Outcome State Fault Refusal := .next (s.setLogic x (s.reg x ^^^ s.reg y))

/-- `8XY4`: the sum modulo 256, `VF` the carry of the exact sum (R106). -/
def execAddReg (x y : Reg) (s : State) : Host.Outcome State Fault Refusal :=
  .next (s.setResultFlag x (s.reg x + s.reg y) (carryFlag (s.reg x) (s.reg y)))

/-- `8XY5`: `V[x] - V[y]` modulo 256, `VF` NOT-borrow (R107). -/
def execSubReg (x y : Reg) (s : State) : Host.Outcome State Fault Refusal :=
  .next (s.setResultFlag x (s.reg x - s.reg y) (noBorrowFlag (s.reg x) (s.reg y)))

/-- `8XY6`: the source shifted right by one, `VF` the bit shifted out (R108). -/
def execShr (x y : Reg) (s : State) : Host.Outcome State Fault Refusal :=
  .next (s.setResultFlag x (s.shiftSource x y >>> 1) (shiftedOutLow (s.shiftSource x y)))

/-- `8XY7`: `V[y] - V[x]` modulo 256, `VF` NOT-borrow (R109). -/
def execSubnReg (x y : Reg) (s : State) : Host.Outcome State Fault Refusal :=
  .next (s.setResultFlag x (s.reg y - s.reg x) (noBorrowFlag (s.reg y) (s.reg x)))

/-- `8XYE`: the source shifted left by one, `VF` the bit shifted out (R110). -/
def execShl (x y : Reg) (s : State) : Host.Outcome State Fault Refusal :=
  .next (s.setResultFlag x (s.shiftSource x y <<< 1) (shiftedOutHigh (s.shiftSource x y)))

/-- `CXKK`: `V[x] <- rand & KK`, the random byte a free draw that is then spent (R111, R22). -/
def execRnd (x : Reg) (kk : Byte) (s : State) : Host.Outcome State Fault Refusal :=
  .next ((s.setReg x (s.rand &&& kk)).nextDraw)

end Sys2Proof.Machine
end

