-- ==== Sys2Proof/Machine/DisplayOps.lean ====
section
/-! DEFINITION. The meanings of the display instructions and the XOR compositor (spec/43_display.md). -/

namespace Sys2Proof.Machine

/-- Where sprite pixel `(r, c)` lands when the sprite's corner is at column `x0`, row `y0`: dropped outside the grid in
COSMAC mode, wrapped otherwise (R132). -/
def placePixel (cosmac : Bool) (x0 y0 r c : Nat) : Option (Fin 32 × Fin 64) :=
  if cosmac && (decide (63 < x0 + c) || decide (31 < y0 + r)) then none
  else some (⟨(y0 + r) % 32, Nat.mod_lt _ (by decide)⟩, ⟨(x0 + c) % 64, Nat.mod_lt _ (by decide)⟩)

/-- One pixel drawn: the old value is tested for collision, then toggled (R131). -/
def drawPixel (acc : Display × Bool) (at? : Option (Fin 32 × Fin 64)) : Display × Bool :=
  match at? with
  | none => acc
  | some (y, x) => (Display.toggle acc.1 y x, acc.2 || Display.get acc.1 y x)

/-- Column `c` of a row byte, 0 at the left, is bit `7 - c` (R132; D16, log 20). -/
def spriteBit (b : Byte) (c : Nat) : Bool := b.getLsbD (7 - c)

/-- One row of a sprite drawn, its columns from the left (R131). -/
def drawRow (cosmac : Bool) (x0 y0 r : Nat) (b : Byte) (acc : Display × Bool) : Display × Bool :=
  (List.range 8).foldl (fun a c => if spriteBit b c then drawPixel a (placePixel cosmac x0 y0 r c) else a) acc

/-- A sprite of `n` rows at `I` drawn, row `r` from the byte at `I + r`: the display after it and whether a set pixel
was cleared (R131, R132). -/
def State.drawSprite (s : State) (x0 y0 n : Nat) : Display × Bool :=
  (List.range n).foldl (fun a r => drawRow s.cosmacMode x0 y0 r (s.readByte (s.blockAddr r)) a) (s.display, false)

/-- The column a sprite starts at: `V[x] mod 64`, in both modes (R132). -/
def State.spriteColumn (s : State) (x : Reg) : Nat := (s.reg x).toNat % 64

/-- The row a sprite starts at: `V[y] mod 32`, in both modes (R132). -/
def State.spriteRow (s : State) (y : Reg) : Nat := (s.reg y).toNat % 32

/-- `00E0`: the display all zero, `render_pending` set (R130; D15, log 19). -/
def execCls (s : State) : Host.Outcome State Fault Refusal := .next ((s.setDisplay Display.clear).setRender true)

/-- `DXYN`: the coordinates are captured, the sprite is drawn, `VF` is written once with the collision flag after all
pixels, and `render_pending` is set on every execution (R131; D15, D17, D32; logs 19, 21, 31). -/
def execDrw (x y : Reg) (n : Fin 16) (s : State) : Host.Outcome State Fault Refusal :=
  let drawn := s.drawSprite (s.spriteColumn x) (s.spriteRow y) n.val
  .next (((s.setDisplay drawn.1).setReg VF (flagByte drawn.2)).setRender true)

end Sys2Proof.Machine
end

