-- ==== Sys2Proof/Machine/Flow.lean ====
section
/-! DEFINITION. The meanings of the control transfer instructions (spec/40_flow.md). `pc` is the advanced program
counter (R66). -/

namespace Sys2Proof.Machine

/-- `00EE`: `pc <- pop()`, all 16 bits; StackUnderflow when the stack is empty (R80, R153). -/
def execRet (s : State) : Host.Outcome State Fault Refusal :=
  match s.pop with
  | none => .next (s.raise .stackUnderflow)
  | some (target, s') => .next (s'.setPc target)

/-- `1NNN`: `pc <- NNN` (R81). -/
def execJp (nnn : Addr) (s : State) : Host.Outcome State Fault Refusal := .next (s.setPc (nnn.setWidth 16))

/-- `2NNN`: push the advanced `pc`, then `pc <- NNN`; StackOverflow when 16 entries are in use (R82, R152). -/
def execCall (nnn : Addr) (s : State) : Host.Outcome State Fault Refusal :=
  match s.push s.pc with
  | none => .next (s.raise .stackOverflow)
  | some s' => .next (s'.setPc (nnn.setWidth 16))

/-- `3XKK`: skip if `V[x] = KK` (R83). -/
def execSeImm (x : Reg) (kk : Byte) (s : State) : Host.Outcome State Fault Refusal := .next (s.skipIf (s.reg x == kk))

/-- `4XKK`: skip if `V[x] != KK` (R84). -/
def execSneImm (x : Reg) (kk : Byte) (s : State) : Host.Outcome State Fault Refusal := .next (s.skipIf (s.reg x != kk))

/-- `5XY0`: skip if `V[x] = V[y]` (R85). -/
def execSeReg (x y : Reg) (s : State) : Host.Outcome State Fault Refusal := .next (s.skipIf (s.reg x == s.reg y))

/-- `9XY0`: skip if `V[x] != V[y]` (R86). -/
def execSneReg (x y : Reg) (s : State) : Host.Outcome State Fault Refusal := .next (s.skipIf (s.reg x != s.reg y))

/-- `BNNN`: `pc <- trunc_12(NNN + V[0])` in COSMAC mode, `trunc_12(NNN + V[x])` otherwise (R87). -/
def execJpOffset (nnn : Addr) (x : Reg) (s : State) : Host.Outcome State Fault Refusal :=
  .next (s.setPc (s.offsetTarget nnn x))

end Sys2Proof.Machine
end

