-- ==== Sys2Proof/Machine/IndexMemory.lean ====
section
/-! DEFINITION. The meanings of the index register and memory instructions (spec/42_index_memory.md). None can fault. -/

namespace Sys2Proof.Machine

/-- `ANNN`: `I <- NNN` (R120). -/
def execLdI (nnn : Addr) (s : State) : Host.Outcome State Fault Refusal := .next (s.setI (nnn.setWidth 16))

/-- `I + V[x]`, clamped to `0xFFF`; the overflow sets `VF` to 1 in Amiga mode, and in every other case `VF` is not
written (R121; D14, log 18). The sum is exact. -/
def State.addToI (s : State) (x : Reg) : State :=
  if 0xFFF < s.I.toNat + (s.reg x).toNat then
    if s.amigaMode then (s.setI 0x0FFF).setReg VF 1 else s.setI 0x0FFF
  else s.setI (BitVec.ofNat 16 (s.I.toNat + (s.reg x).toNat))

/-- `FX1E`: add a register to `I` (R121). -/
def execAddI (x : Reg) (s : State) : Host.Outcome State Fault Refusal := .next (s.addToI x)

/-- `FX29`: `I` points at the glyph of `V[x]`'s low nibble (R122). -/
def execLdFont (x : Reg) (s : State) : Host.Outcome State Fault Refusal := .next (s.setI (glyphAddr (s.reg x)))

/-- `FX33`: the three decimal digits of `V[x]` at `I`, `I + 1`, `I + 2` (R123). -/
def execStoreBcd (x : Reg) (s : State) : Host.Outcome State Fault Refusal :=
  .next (s.storeBytes (s.blockAddr 0) (bcdDigits (s.reg x)))

/-- `FX55`: `V[0..x]` to memory from `I` on; `I` advances in COSMAC mode (R124). -/
def execStoreRegs (x : Reg) (s : State) : Host.Outcome State Fault Refusal :=
  .next ((s.storeBytes (s.blockAddr 0) (s.regsUpTo x)).setI (s.blockNextI x))

/-- `FX65`: `V[0..x]` from memory from `I` on; `I` advances in COSMAC mode (R125). -/
def execLoadRegs (x : Reg) (s : State) : Host.Outcome State Fault Refusal :=
  .next ((s.setRegs (s.regsLoaded x)).setI (s.blockNextI x))

end Sys2Proof.Machine
end

