-- ==== Sys2Proof/Machine/KeysTimers.lean ====
section
/-! DEFINITION. The meanings of the keypad and timer instructions (spec/44_keys_timers.md). `keys` is the vector as it
stands at the STEP (R21; D22, log 24). -/

namespace Sys2Proof.Machine

/-- `EX9E`: skip if key `V[x] & 0x0F` is pressed (R140). -/
def execSkp (x : Reg) (s : State) : Host.Outcome State Fault Refusal := .next (s.skipIf (s.key (lowNibble (s.reg x))))

/-- `EXA1`: skip if key `V[x] & 0x0F` is not pressed (R141). -/
def execSknp (x : Reg) (s : State) : Host.Outcome State Fault Refusal := .next (s.skipIf (!s.key (lowNibble (s.reg x))))

/-- `FX0A` with `cosmac_mode = 0`: the lowest pressed key goes to `V[x]`; with none pressed, re-spin (R142). -/
def State.waitPress (s : State) (x : Reg) : State :=
  match s.lowestPressed with
  | some k => s.setReg x (BitVec.ofNat 8 k.val)
  | none => s.respin

/-- `FX0A` with `cosmac_mode = 1`: latch the lowest pressed key and re-spin; once the latched key is released, write it
to `V[x]` and clear the latch (R142; D18, log 22). -/
def State.waitRelease (s : State) (x : Reg) : State :=
  match s.latch with
  | none =>
    match s.lowestPressed with
    | some k => (s.setLatch (some k)).respin
    | none => s.respin
  | some j => if s.key j then s.respin else (s.setReg x (BitVec.ofNat 8 j.val)).setLatch none

/-- `FX0A` in the mode of the machine (R142). -/
def State.waitForKey (s : State) (x : Reg) : State := if s.cosmacMode then s.waitRelease x else s.waitPress x

/-- `FX0A`: wait for a key; each waiting STEP is complete and leaves `pc` at the instruction (R142). -/
def execWaitKey (x : Reg) (s : State) : Host.Outcome State Fault Refusal := .next (s.waitForKey x)

/-- `FX07`: `V[x] <- DT` (R143; D19, log 23). -/
def execReadDT (x : Reg) (s : State) : Host.Outcome State Fault Refusal := .next (s.setReg x s.DT)

/-- `FX15`: `DT <- V[x]` (R144; D19, log 23). -/
def execSetDT (x : Reg) (s : State) : Host.Outcome State Fault Refusal := .next (s.setDT (s.reg x))

/-- `FX18`: `ST <- V[x]` (R145; D19, log 23). -/
def execSetST (x : Reg) (s : State) : Host.Outcome State Fault Refusal := .next (s.setST (s.reg x))

end Sys2Proof.Machine
end

