-- ==== Sys2Proof/Machine/Events.lean ====
section
/-! DEFINITION. The six events of the machine (spec/00_scope.md R5): STEP, TICK, SET_KEY, TAKE_RENDER, LOAD and RESET,
and the boot sequence the host sets a run up with (spec/70_reset_and_hazards.md R182). -/

namespace Sys2Proof.Machine

/-- The guard of the events that exist only when `fault = NONE` (R20, R156): halted, there is no transition (log 10). -/
def State.unlessHalted (s : State) (o : Host.Outcome State Fault Refusal) : Host.Outcome State Fault Refusal :=
  match s.fault with
  | some c => .fault (.halted c)
  | none => o

/-- Decode and dispatch after the fetch (R66): the instruction sees the advanced `pc`; bytes that are no instruction
raise InvalidOpcode (R65, R151). -/
def State.dispatch (s : State) (bytes : List Byte) : Host.Outcome State Fault Refusal :=
  match decode bytes with
  | .ok (i, _) => exec i s.advance
  | .error _ => .next (s.advance.raise .invalidOpcode)

/-- The STEP event (R66). -/
def State.stepEvent (s : State) : Host.Outcome State Fault Refusal := s.unlessHalted (s.dispatch s.fetchBytes)

/-- One timer tick of an 8-bit counter: down by 1, never below 0 (R15, R161). -/
def tickDown (t : Byte) : Byte := if t.toNat = 0 then t else t - 1

/-- What TICK changes: both timers, in one event (R161). -/
def State.tickTimers (s : State) : State := (s.setDT (tickDown s.DT)).setST (tickDown s.ST)

/-- The TICK event: it exists only when `fault = NONE` (R161; D29, log 28). -/
def State.tickEvent (s : State) : Host.Outcome State Fault Refusal := s.unlessHalted (.next s.tickTimers)

/-- The SET_KEY event: legal at any time, also while halted (R163). -/
def State.setKeyEvent (s : State) (k : Key) (pressed : Bool) : Host.Outcome State Fault Refusal :=
  .next (s.setKey k pressed)

/-- The TAKE_RENDER event: the bit it returns and the state after it, as one atomic read and clear; legal also while
halted (R164; D30, log 29). -/
def State.takeRender (s : State) : Bool × State := (s.renderPending, s.setRender false)

/-- What LOAD does when it exists: an image that does not fit below `0x1000` writes nothing and halts the core with
ROM_TOO_LARGE; else byte `i` goes to `offset + i`, with no wrap (R154, R181; D28, log 27). -/
def State.loadImage (s : State) (bytes : List Byte) (offset : Nat) : State :=
  if Config.memSize < offset + bytes.length then s.setFault (some .romTooLarge) else s.storeBytes offset bytes

/-- The LOAD event: only when `fault = NONE`, and only before the first STEP (R181, R182; logs 9, 10). -/
def State.loadEvent (s : State) (bytes : List Byte) (offset : Nat) : Host.Outcome State Fault Refusal :=
  s.unlessHalted (if s.started then .refused .loadAfterFirstStep else .next (s.loadImage bytes offset))

/-- What an event does to the machine (R5). -/
def State.event (s : State) : Event → Host.Outcome State Fault Refusal
  | .reset cosmac amiga => .next (s.resetEvent cosmac amiga)
  | .load bytes offset => s.loadEvent bytes offset
  | .step => s.stepEvent
  | .tick => s.tickEvent
  | .setKey k pressed => s.setKeyEvent k pressed
  | .takeRender => .next s.takeRender.2

/-- The event that comes next: the oldest of the host's schedule, or a STEP when the schedule has run out (log 1). -/
def State.nextEvent (s : State) : Event :=
  match s.schedule with
  | [] => .step
  | e :: _ => e

/-- The host's schedule once its oldest event has been taken. -/
def State.popEvent (s : State) : State := s.setSchedule s.schedule.tail

/-- The font, sixteen glyphs of five bytes (R183): glyphs 0 to 7. The bytes are general knowledge in the spec (D20, G2;
PRESUMED, log 7); the core does not depend on them. -/
def fontLow : List Byte :=
  [ 0xF0, 0x90, 0x90, 0x90, 0xF0,
    0x20, 0x60, 0x20, 0x20, 0x70,
    0xF0, 0x10, 0xF0, 0x80, 0xF0,
    0xF0, 0x10, 0xF0, 0x10, 0xF0,
    0x90, 0x90, 0xF0, 0x10, 0x10,
    0xF0, 0x80, 0xF0, 0x10, 0xF0,
    0xF0, 0x80, 0xF0, 0x90, 0xF0,
    0xF0, 0x10, 0x20, 0x40, 0x40 ]

/-- Glyphs 8 to F (R183). -/
def fontHigh : List Byte :=
  [ 0xF0, 0x90, 0xF0, 0x90, 0xF0,
    0xF0, 0x90, 0xF0, 0x10, 0xF0,
    0xF0, 0x90, 0xF0, 0x90, 0x90,
    0xE0, 0x90, 0xE0, 0x90, 0xE0,
    0xF0, 0x80, 0x80, 0x80, 0xF0,
    0xE0, 0x90, 0x90, 0x90, 0xE0,
    0xF0, 0x80, 0xF0, 0x80, 0xF0,
    0xF0, 0x80, 0xF0, 0x80, 0x80 ]

/-- The 80 font bytes (R183). -/
def fontSet : List Byte := fontLow ++ fontHigh

/-- The events of the boot sequence (R182): RESET, LOAD of the font, LOAD of the ROM image. -/
def bootEvents (cosmac amiga : Bool) (rom : List Byte) : List Event :=
  [.reset cosmac amiga, .load fontSet Config.fontBase, .load rom Config.progBase]

end Sys2Proof.Machine
end

