-- ==== Sys2Proof/Machine/Step.lean ====
section
/-! DEFINITION. One step of the machine: one atomic event (spec/00_scope.md R5). -/

namespace Sys2Proof.Machine

/-- One step: the oldest event of the host's schedule happens; when the schedule has run out the host sends a STEP
(log 1). -/
def step (s : State) : Host.Outcome State Fault Refusal := s.popEvent.event s.nextEvent

/-- The state with one instruction placed where the next STEP fetches it: its two bytes at `pc` and `pc + 1`, first byte
high, no scheduled event before that STEP and no fault that would keep it from happening. It stands for the load of a
program from outside the machine (log 8). -/
def State.withFetchWord (s : State) (nbits w : Nat) : State :=
  let op : Word := BitVec.ofNat 16 (w % 2 ^ nbits)
  (((s.writeByte s.pc.toNat (op.extractLsb' 8 8)).writeByte (s.pc + 1).toNat (op.extractLsb' 0 8)).setSchedule []).setFault
    none

end Sys2Proof.Machine
end

