-- ==== Sys2Proof/Safety.lean ====
section
/-! DEFINITION. The terms statements use: the state invariant of spec/10_state.md R26, a running and a halted machine,
the end of a run (spec/70_reset_and_hazards.md R190), and what it means that a state is unchanged but for some parts. -/

namespace Sys2Proof.Machine

/-- The invariant of R26 that the types of State do not already give: `I` is at most `0xFFF`, the latch is empty outside
COSMAC mode, and memory is in its canonical form. (`0 <= sp <= 16` and the 8-bit ranges hold by type; log 35.) -/
structure State.Inv (s : State) : Prop where
  index_le   : s.I.toNat ≤ 0xFFF
  latch_none : s.cosmacMode = false → s.latch = none
  mem_wf     : Memory.wf s.mem

/-- The core runs: STEP, TICK and LOAD exist (R20). -/
abbrev State.running (s : State) : Prop := s.fault = none

/-- Halted by a fault (R156, R190 (b)): always a failed run. -/
abbrev State.halted (s : State) : Prop := s.fault ≠ none

/-- The idle loop of R190 (a): the instruction at `pc` is the `1NNN` that jumps to itself, and `pc <= 0xFFF`. -/
abbrev State.idle (s : State) : Prop :=
  s.pc.toNat ≤ 0xFFF ∧ s.readByte s.pc.toNat = BitVec.ofNat 8 (0x10 + s.pc.toNat / 256) ∧
    s.readByte (s.pc.toNat + 1) = BitVec.ofNat 8 (s.pc.toNat % 256)

/-- The next event is a RESET. -/
abbrev State.resets (s : State) : Prop := ∃ c a, s.nextEvent = .reset c a

/-- The next event is a LOAD. -/
abbrev State.loads (s : State) : Prop := ∃ bytes offset, s.nextEvent = .load bytes offset

/-- The next event is a STEP whose fetched bytes decode to an instruction with the property. -/
abbrev State.runs (s : State) (p : Instr → Prop) : Prop :=
  s.nextEvent = .step ∧ ∃ i rest, decode s.fetchBytes = .ok (i, rest) ∧ p i

/-- The sprite of `n` rows at `I`, its corner at column `x0` and row `y0`, has a 1 that lands on this pixel (R132): bit
`7 - c` of the byte at `I + r` for row `r` and column `c`, clipped at the edges in COSMAC mode and wrapped otherwise. -/
abbrev State.spriteCovers (s : State) (x0 y0 n : Nat) (row : Fin 32) (col : Fin 64) : Prop :=
  ∃ r < n, ∃ c < 8, (s.readByte (s.blockAddr r)).getLsbD (7 - c) = true ∧
    if s.cosmacMode then row.val = y0 + r ∧ col.val = x0 + c
    else row.val = (y0 + r) % 32 ∧ col.val = (x0 + c) % 64

/-- Every register but those listed is unchanged. -/
abbrev State.regsUnchangedBut (s t : State) (ds : List Reg) : Prop := ∀ r : Reg, r ∉ ds → t.reg r = s.reg r

/-- Every byte of memory reads as before. -/
abbrev State.bytesUnchanged (s t : State) : Prop := ∀ a : Nat, t.readByte a = s.readByte a

/-- Every byte outside the `n` bytes stored from `addr` on reads as before. -/
abbrev State.bytesUnchangedBut (s t : State) (addr n : Nat) : Prop :=
  ∀ a : Nat, (∀ k < n, trunc12 a ≠ trunc12 (addr + k)) → t.readByte a = s.readByte a

end Sys2Proof.Machine
end

