-- ==== Sys2Proof/Certificates/Slice0/Obligations.lean ====
section
/-! DEFINITION. The statements for the provers. Each docstring names the rule of spec/ it formalises or, for a statement
with basis "derived", the sections it rests on and the decisions D<n> of the spec (with our log entry) it takes over.
Where a statement is about `exec i s`, `s` is the state after the fetch's advance (R66). -/

open Sys2Proof Sys2Proof.Machine

/-! ## Encoding (spec/30_encoding.md) -/

/-- Decoding the two bytes the encoder writes gives the instruction back, whatever bytes follow: no bit of an encoding
is dropped (30_encoding.md sections 1 and 2). -/
def Obligations.DecodeOfEncodeIsTheInstruction : Prop :=
  ∀ (i : Instr) (rest : List Byte), i.WellFormed → decode (bytesOfWord (encode i) ++ rest) = .ok (i, rest)

/-- Every word has one meaning: a word that decodes is the word the encoder writes for the instruction, which is well
formed (30_encoding.md sections 1 and 2). -/
def Obligations.EncodeOfDecodeIsTheWord : Prop :=
  ∀ (op : Word) (i : Instr), decodeWord op = .ok i → encode i = op ∧ i.WellFormed

/-- The invalid words are exactly those of the table of 30_encoding.md section 3, and every other word decodes. -/
def Obligations.InvalidWordsAreThoseOfTheTable : Prop :=
  ∀ op : Word,
    let top := op.toNat / 4096
    let n4 := op.toNat % 16
    let low := op.toNat % 256
    let invalid := (top = 0x0 ∧ op.toNat ≠ 0x00E0 ∧ op.toNat ≠ 0x00EE) ∨ (top = 0x5 ∧ n4 ≠ 0) ∨
      (top = 0x8 ∧ n4 ∈ [8, 9, 0xA, 0xB, 0xC, 0xD, 0xF]) ∨ (top = 0x9 ∧ n4 ≠ 0) ∨
      (top = 0xE ∧ low ∉ [0x9E, 0xA1]) ∨
      (top = 0xF ∧ low ∉ [0x07, 0x0A, 0x15, 0x18, 0x1E, 0x29, 0x33, 0x55, 0x65])
    (decodeWord op = .error (.invalidOpcode op) ↔ invalid) ∧ ((∃ i, decodeWord op = .ok i) ↔ ¬invalid)

/-- A few words written out from the rows of 30_encoding.md section 2 decode to the instructions they stand for (the
words are those of 95_test_vectors.md section 2.1 and part 3). -/
def Obligations.SampleWordsDecodeAsWritten : Prop :=
  decodeWord 0x00E0 = .ok .cls ∧ decodeWord 0x2210 = .ok (.call 0x210) ∧ decodeWord 0x71FF = .ok (.addImm 1 0xFF) ∧
  decodeWord 0x8AB7 = .ok (.subnReg 0xA 0xB) ∧ decodeWord 0xBFFF = .ok (.jpOffset 0xFFF 0xF) ∧
  decodeWord 0xD012 = .ok (.drw 0 1 2) ∧ decodeWord 0xE39E = .ok (.skp 3) ∧ decodeWord 0xF265 = .ok (.loadRegs 2) ∧
  decodeWord 0x5001 = .error (.invalidOpcode 0x5001) ∧ decodeWord 0x0000 = .error (.invalidOpcode 0x0000)

/-! ## The STEP event (spec/30_encoding.md section 4) -/

/-- R44: the opcode is the byte at `pc` in bits 15 to 8 and the byte at `pc + 1` in bits 7 to 0, always. -/
def Obligations.FetchIsBigEndian : Prop :=
  ∀ s : State, ∃ b0 b1 : Byte, s.fetchBytes = [b0, b1] ∧
    b0 = s.readByte s.pc.toNat ∧ b1 = s.readByte (s.pc.toNat + 1) ∧
    (wordOfBytes b0 b1).extractLsb' 8 8 = b0 ∧ (wordOfBytes b0 b1).extractLsb' 0 8 = b1 ∧
    (wordOfBytes b0 b1).toNat = b0.toNat * 256 + b1.toNat ∧
    ∀ i, decodeWord (wordOfBytes b0 b1) = .ok i ↔ decode s.fetchBytes = .ok (i, [])

/-- A STEP of a running core whose bytes decode to an instruction runs that instruction, on the state with `pc` advanced
by 2 (30_encoding.md section 4; modulo 2^16 by D4, log 12). Around it stand only the model's own fields: the event is
taken off the schedule and `started` is set (logs 1, 9). -/
def Obligations.StepRunsTheDecodedInstruction : Prop :=
  ∀ (s : State) (i : Instr) (rest : List Byte),
    s.nextEvent = .step → s.running → decode s.fetchBytes = .ok (i, rest) →
    i.WellFormed ∧ step s = exec i { s with pc := s.pc + 2, started := true, schedule := s.schedule.tail }

/-- The three faults of a STEP set `fault` and commit nothing, the advance of `pc` included: bytes that are no
instruction, a call with 16 entries on the stack, a return with none (60_exceptions.md sections 1 and 2, D9, log 10;
`started` and `schedule` are the model's own). -/
def Obligations.FaultingStepCommitsNothing : Prop :=
  ∀ (s : State) (c : FaultCause), s.nextEvent = .step → s.running →
    (c = .invalidOpcode ∧ (∃ e, decode s.fetchBytes = .error e)) ∨
    (c = .stackOverflow ∧ s.sp.val = 16 ∧ ∃ nnn rest, decode s.fetchBytes = .ok (.call nnn, rest)) ∨
    (c = .stackUnderflow ∧ s.sp.val = 0 ∧ ∃ rest, decode s.fetchBytes = .ok (.ret, rest)) →
    step s = .next { s with fault := some c, started := true, schedule := s.schedule.tail }

/-- The program counter after an instruction that does not fault, from the address `a` of the instruction: `a + 2`,
`a + 4` after a taken skip, the target of a jump, call or return, `a` for a key wait that goes on (30_encoding.md
section 4, 10_state.md section 2; D4, D6, logs 12, 14). -/
def Obligations.PcAfterEachInstruction : Prop :=
  ∀ (i : Instr) (s t : State), s.running → exec i s.advance = .next t → t.running →
    match i with
    | .ret => ∃ h : s.sp.val - 1 < 16, 0 < s.sp.val ∧ t.pc = s.stack[s.sp.val - 1]
    | .jp nnn => t.pc.toNat = nnn.toNat
    | .call nnn => t.pc.toNat = nnn.toNat
    | .jpOffset nnn x =>
      t.pc.toNat = (nnn.toNat + (if s.cosmacMode then s.reg 0 else s.reg x).toNat) % 4096
    | .seImm x kk => t.pc = if s.reg x = kk then s.pc + 4 else s.pc + 2
    | .sneImm x kk => t.pc = if s.reg x ≠ kk then s.pc + 4 else s.pc + 2
    | .seReg x y => t.pc = if s.reg x = s.reg y then s.pc + 4 else s.pc + 2
    | .sneReg x y => t.pc = if s.reg x ≠ s.reg y then s.pc + 4 else s.pc + 2
    | .skp x => t.pc = if s.key (lowNibble (s.reg x)) = true then s.pc + 4 else s.pc + 2
    | .sknp x => t.pc = if s.key (lowNibble (s.reg x)) = false then s.pc + 4 else s.pc + 2
    | .waitKey _ => t.pc = s.pc ∧ t.V = s.V ∨ t.pc = s.pc + 2
    | _ => t.pc = s.pc + 2

/-- An instruction placed where the next STEP fetches is the instruction that STEP runs: a store is seen by the very
next fetch (20_memory.md section 7). -/
def Obligations.StoredWordIsTheNextFetched : Prop :=
  ∀ (s : State) (w : Nat) (i : Instr), Memory.wf s.mem → decodeTableWord 16 w = some i →
    step (s.withFetchWord 16 w) = exec i (s.withFetchWord 16 w).advance

/-- The idle loop: a `1NNN` that jumps to itself leaves all the core's state unchanged, STEP after STEP
(70_reset_and_hazards.md section 4, D26, log 26; `started` and `schedule` are the model's own). -/
def Obligations.IdleLoopChangesNothing : Prop :=
  ∀ s : State, s.nextEvent = .step → s.running → s.idle →
    step s = .next { s with started := true, schedule := s.schedule.tail }

/-! ## Faults, RESET, LOAD and the host's events -/

/-- While `fault` holds a cause the events STEP, TICK and LOAD have no transition (60_exceptions.md section 2, D9,
log 10). -/
def Obligations.HaltedCoreHasNoStepTickOrLoad : Prop :=
  ∀ (s : State) (c : FaultCause), s.fault = some c → s.nextEvent = .step ∨ s.nextEvent = .tick ∨ s.loads →
    step s = .fault (.halted c)

/-- A halted core keeps `fault`, `pc` and everything else but the keys and `render_pending` until RESET
(60_exceptions.md section 2, D9, log 10). -/
def Obligations.HaltedCoreKeepsItsStateUntilReset : Prop :=
  ∀ (s t : State), s.halted → ¬s.resets → step s = .next t →
    t = { s with keys := t.keys, renderPending := t.renderPending, schedule := s.schedule.tail }

/-- RESET, from every state, the halted ones included, makes the machine of the table in 10_state.md section 6: the
values other than `pc` are the spec's own choice (D11, D12; logs 3, 6). The model's own fields: the count of draws and
the rest of the schedule go on, `started` is cleared (logs 33, 9). -/
def Obligations.ResetMakesTheMachineAfresh : Prop :=
  ∀ (s : State) (c a : Bool), s.nextEvent = .reset c a → ∃ t, step s = .next t ∧
    t.pc = 0x200 ∧ (∀ r, t.reg r = 0) ∧ t.I = 0 ∧ t.sp.val = 0 ∧ t.DT = 0 ∧ t.ST = 0 ∧ (∀ b, t.readByte b = 0) ∧
    (∀ row col, t.display.get row col = false) ∧ t.renderPending = false ∧ t.latch = none ∧ (∀ k, t.key k = false) ∧
    t.fault = none ∧ t.cosmacMode = c ∧ t.amigaMode = a ∧
    t.started = false ∧ t.draws = s.draws ∧ t.schedule = s.schedule.tail

/-- LOAD before the first STEP: an image that fits below `0x1000` is copied byte by byte to `offset + i` and nothing
else changes; one that does not fit writes nothing and sets `fault` to ROM_TOO_LARGE; after the first STEP there is no
LOAD (70_reset_and_hazards.md section 1, D24, D28, logs 9, 27). -/
def Obligations.LoadCopiesOrFaultsOrIsRefused : Prop :=
  ∀ (s : State) (bytes : List Byte) (offset : Nat),
    Memory.wf s.mem → s.nextEvent = .load bytes offset → s.running →
    (s.started = false → offset + bytes.length ≤ 4096 → ∃ t, step s = .next t ∧
      t = { s with mem := t.mem, schedule := s.schedule.tail } ∧
      (∀ i (h : i < bytes.length), t.readByte (offset + i) = bytes[i]) ∧ s.bytesUnchangedBut t offset bytes.length) ∧
    (s.started = false → 4096 < offset + bytes.length →
      step s = .next { s with fault := some .romTooLarge, schedule := s.schedule.tail }) ∧
    (s.started = true → step s = .refused .loadAfterFirstStep)

/-- The boot sequence, from any state: after RESET, LOAD of the font and LOAD of a ROM that fits, the glyph of digit `d`
is at `0x050 + 5 * d`, byte `i` of the ROM at `0x200 + i`, `pc` at the entry point and the modes as given
(70_reset_and_hazards.md section 1; the font bytes are general knowledge of the spec, D20, log 7). -/
def Obligations.BootPlacesFontAndProgram : Prop :=
  ∀ (s : State) (c a : Bool) (rom : List Byte),
    s.schedule = bootEvents c a rom → rom.length ≤ Config.romMax →
    ∃ t, Host.Core.run Sys2Proof.core 3 s = .next t ∧ t.running ∧ t.pc = 0x200 ∧ t.cosmacMode = c ∧ t.amigaMode = a ∧
      t.started = false ∧
      (∀ i (h : i < rom.length), t.readByte (0x200 + i) = rom[i]) ∧
      (∀ i (h : i < fontSet.length), t.readByte (0x050 + i) = fontSet[i]) ∧ fontSet.length = 80

/-- A schedule of `n` TICKs counts both timers down by `n`, never below 0, and changes nothing else, `pc`, `VF` and
`render_pending` included (60_exceptions.md section 4). -/
def Obligations.TicksCountTheTimersDown : Prop :=
  ∀ (n : Nat) (s : State) (es : List Event), s.running → s.schedule = List.replicate n .tick ++ es →
    ∃ t, Host.Core.run Sys2Proof.core n s = .next t ∧ t.DT.toNat = s.DT.toNat - n ∧ t.ST.toNat = s.ST.toNat - n ∧
      t = { s with DT := t.DT, ST := t.ST, schedule := es }

/-- R163: SET_KEY sets its key and changes nothing else, also while halted, and no instruction writes `keys`. -/
def Obligations.SetKeySetsOneKey : Prop :=
  (∀ (s : State) (k : Key) (p : Bool), s.nextEvent = .setKey k p → ∃ t, step s = .next t ∧ t.key k = p ∧
    (∀ j, j ≠ k → t.key j = s.key j) ∧ t = { s with keys := t.keys, schedule := s.schedule.tail }) ∧
  (∀ (i : Instr) (s t : State), exec i s = .next t → t.keys = s.keys)

/-- TAKE_RENDER returns `render_pending` and clears it, in one event, and changes nothing else, also while halted
(60_exceptions.md section 5, D30, log 29). -/
def Obligations.TakeRenderReadsAndClears : Prop :=
  ∀ s : State, s.takeRender.1 = s.renderPending ∧
    (s.nextEvent = .takeRender → step s = .next { s with renderPending := false, schedule := s.schedule.tail })

/-- The outputs are functions of the state: the display itself, `sound_active` exactly when `ST` is not 0, and the
fault code 0 to 4 (10_state.md section 4, 60_exceptions.md section 1, D10, D31, logs 11, 30). -/
def Obligations.OutputsFollowTheState : Prop :=
  ∀ s : State, s.displaySnapshot = s.display ∧ (s.soundActive = true ↔ 0 < s.ST.toNat) ∧
    (faultCode s.fault).toNat = match s.fault with
      | none => 0
      | some .invalidOpcode => 1
      | some .stackOverflow => 2
      | some .stackUnderflow => 3
      | some .romTooLarge => 4

/-! ## Invariants (spec/10_state.md R26) -/

/-- Every step of every state that meets the invariant gives a state that meets it: `I` at most `0xFFF`, the latch empty
outside COSMAC mode, memory canonical (10_state.md section 5; memory's form is the model's own). -/
def Obligations.EveryStepKeepsTheInvariant : Prop :=
  ∀ s t : State, s.Inv → step s = .next t → t.Inv

/-- The state after reset meets the invariant, in every mode and with every schedule. -/
def Obligations.ResetMeetsTheInvariant : Prop :=
  State.reset.Inv ∧ ∀ (c a : Bool) (es : List Event), ((State.resetWith c a).setSchedule es).Inv

/-! ## Whole-machine rules: what each piece of state is written by, over all events -/

/-- The modes are constant between RESETs (10_state.md section 3, D25, log 25). -/
def Obligations.ModesChangeOnlyAtReset : Prop :=
  ∀ s t : State, step s = .next t → ¬s.resets → t.cosmacMode = s.cosmacMode ∧ t.amigaMode = s.amigaMode

/-- Only `00E0` and `DXYN` mutate the display; `render_pending` is set by those two, on every execution, and cleared
only by TAKE_RENDER and RESET (10_state.md section 3, D15, log 19). -/
def Obligations.DisplayChangesOnlyByClearAndDraw : Prop :=
  ∀ s t : State, step s = .next t →
    (t.display ≠ s.display → s.resets ∨ s.runs fun i => i = .cls ∨ ∃ x y n, i = .drw x y n) ∧
    ((s.runs fun i => i = .cls ∨ ∃ x y n, i = .drw x y n) → t.renderPending = true) ∧
    (t.renderPending = true → s.renderPending = false → s.runs fun i => i = .cls ∨ ∃ x y n, i = .drw x y n) ∧
    (t.renderPending = false → s.renderPending = true → s.resets ∨ s.nextEvent = .takeRender)

/-- Memory is written only by `FX33`, `FX55` and LOAD (20_memory.md section 1, RESET aside). -/
def Obligations.MemoryChangesOnlyByStoresAndLoad : Prop :=
  ∀ s t : State, step s = .next t → (∃ a, t.readByte a ≠ s.readByte a) →
    s.resets ∨ s.loads ∨ s.runs fun i => ∃ x, i = .storeBcd x ∨ i = .storeRegs x

/-- Only `2NNN` pushes and only `00EE` pops; a pop moves no entry (10_state.md section 2). -/
def Obligations.StackChangesOnlyByCallAndReturn : Prop :=
  ∀ s t : State, step s = .next t → ¬s.resets →
    (s.sp < t.sp → s.runs fun i => ∃ nnn, i = .call nnn) ∧ (t.sp < s.sp → s.runs fun i => i = .ret) ∧
    (t.stack ≠ s.stack → s.runs fun i => ∃ nnn, i = .call nnn)

/-- The special registers, RESET aside: five instructions write `I`, `FX55` and `FX65` among them only in COSMAC mode;
`DT` is written by `FX15` and the TICK, `ST` by `FX18` and the TICK; only `FX0A` in COSMAC mode writes the latch
(10_state.md sections 2 and 3). -/
def Obligations.SpecialRegistersChangeOnlyByTheirWriters : Prop :=
  ∀ s t : State, step s = .next t → ¬s.resets →
    (t.I ≠ s.I → s.runs fun i => (∃ nnn, i = .ldI nnn) ∨ (∃ x, i = .addI x ∨ i = .ldFont x) ∨
      s.cosmacMode = true ∧ ∃ x, i = .storeRegs x ∨ i = .loadRegs x) ∧
    (t.DT ≠ s.DT → s.nextEvent = .tick ∨ s.runs fun i => ∃ x, i = .setDT x) ∧
    (t.ST ≠ s.ST → s.nextEvent = .tick ∨ s.runs fun i => ∃ x, i = .setST x) ∧
    (t.latch ≠ s.latch → s.cosmacMode = true ∧ s.runs fun i => ∃ x, i = .waitKey x)

/-- `VF` changes only by the flag writers of the table in 10_state.md section 1, under that table's conditions on the
modes, or as the ordinary destination of an instruction that writes it as `V[x]` (or as part of `V[0..F]`). -/
def Obligations.FlagChangesOnlyByItsWriters : Prop :=
  ∀ s t : State, step s = .next t → t.reg VF ≠ s.reg VF →
    s.resets ∨ s.runs fun i =>
      (s.cosmacMode = true ∧ ∃ x y, i = .orReg x y ∨ i = .andReg x y ∨ i = .xorReg x y) ∨
      (∃ x y, i = .addReg x y ∨ i = .subReg x y ∨ i = .shr x y ∨ i = .subnReg x y ∨ i = .shl x y) ∨
      (∃ x y n, i = .drw x y n) ∨
      (s.amigaMode = true ∧ ∃ x, i = .addI x ∧ 0xFFF < s.I.toNat + (s.reg x).toNat) ∨
      (∃ kk, i = .ldImm VF kk ∨ i = .addImm VF kk ∨ i = .rnd VF kk) ∨
      (∃ y, i = .ldReg VF y ∨ i = .orReg VF y ∨ i = .andReg VF y ∨ i = .xorReg VF y) ∨
      i = .readDT VF ∨ i = .waitKey VF ∨ i = .loadRegs VF

/-- Nothing else faults: `fault` takes a cause only from an invalid word, a call with a full stack, a return with an
empty one, or a LOAD that does not fit; and every instruction has a next state (60_exceptions.md section 1). -/
def Obligations.OnlyTheFourCausesAreRaised : Prop :=
  (∀ (i : Instr) (s : State), ∃ t, exec i s = .next t) ∧
  ∀ (s t : State) (c : FaultCause), step s = .next t → t.fault = some c → s.running →
    match c with
    | .invalidOpcode => s.nextEvent = .step ∧ ∃ e, decode s.fetchBytes = .error e
    | .stackOverflow => s.sp.val = 16 ∧ s.runs fun i => ∃ nnn, i = .call nnn
    | .stackUnderflow => s.sp.val = 0 ∧ s.runs fun i => i = .ret
    | .romTooLarge => ∃ bytes offset, s.nextEvent = .load bytes offset ∧ 4096 < offset + bytes.length

/-! ## What instructions do not read -/

/-- `ST` is not readable by any instruction, and `DXYN` is the only one that reads the display: another value of either
changes nothing but itself (10_state.md section 3). -/
def Obligations.SoundTimerAndDisplayAreNotRead : Prop :=
  ∀ (i : Instr) (s : State),
    (∀ v : Byte, ∃ t, exec i s = .next t ∧ exec i { s with ST := v } = .next (match i with
      | .setST _ => t
      | _ => { t with ST := v })) ∧
    (∀ d : Display, (∀ x y n, i ≠ .drw x y n) →
      ∃ t, exec i s = .next t ∧ exec i { s with display := d } = .next (match i with
        | .cls => t
        | _ => { t with display := d }))

/-- No instruction outside the ten reads `cosmac_mode`, and none but `FX1E` reads `amiga_mode` (00_scope.md
section 4). -/
def Obligations.ModesAreReadOnlyByGatedInstructions : Prop :=
  ∀ (i : Instr) (s : State) (m : Bool),
    ((∀ x y, i ≠ .orReg x y ∧ i ≠ .andReg x y ∧ i ≠ .xorReg x y ∧ i ≠ .shr x y ∧ i ≠ .shl x y) →
      (∀ nnn x, i ≠ .jpOffset nnn x) → (∀ x y n, i ≠ .drw x y n) →
      (∀ x, i ≠ .storeRegs x ∧ i ≠ .loadRegs x ∧ i ≠ .waitKey x) →
      ∃ t, exec i s = .next t ∧ exec i { s with cosmacMode := m } = .next { t with cosmacMode := m }) ∧
    ((∀ x, i ≠ .addI x) →
      ∃ t, exec i s = .next t ∧ exec i { s with amigaMode := m } = .next { t with amigaMode := m })

/-- Stale stack entries are unobservable: two states that differ only at and above `sp` stay so under every instruction
(10_state.md section 2, D27, log 4). -/
def Obligations.StaleStackEntriesAreUnobservable : Prop :=
  ∀ (i : Instr) (s : State) (st : Vector Word 16), (∀ k (h : k < 16), k < s.sp.val → st[k] = s.stack[k]) →
    ∃ t u, exec i s = .next t ∧ exec i { s with stack := st } = .next u ∧ u = { t with stack := u.stack } ∧
      ∀ k (h : k < 16), k < t.sp.val → u.stack[k] = t.stack[k]

/-! ## Control transfer (spec/40_flow.md) -/

/-- R81: `1NNN` puts `NNN` into `pc` and changes nothing else; a jump already at its target is a stable loop. -/
def Obligations.JumpPutsItsAddressInPc : Prop :=
  ∀ (nnn : Addr) (s : State), (encode (.jp nnn)).toNat = 0x1000 + nnn.toNat ∧
    ∃ t, exec (.jp nnn) s = .next t ∧ t.pc.toNat = nnn.toNat ∧ t = { s with pc := t.pc } ∧ s.bytesUnchanged t ∧
      exec (.jp nnn) t = .next t

/-- `2NNN` below 16 entries pushes the advanced `pc`, all 16 bits, and jumps; entries below stay, and no register, flag,
timer or byte changes (40_flow.md, 2NNN). -/
def Obligations.CallPushesTheAdvancedPc : Prop :=
  ∀ (nnn : Addr) (s : State) (h : s.sp.val < 16), ∃ t, exec (.call nnn) s = .next t ∧
    t.pc.toNat = nnn.toNat ∧ t.sp.val = s.sp.val + 1 ∧ t.stack[s.sp.val] = s.pc ∧
    (∀ k (hk : k < 16), k ≠ s.sp.val → t.stack[k] = s.stack[k]) ∧
    t = { s with pc := t.pc, sp := t.sp, stack := t.stack } ∧ s.bytesUnchanged t

/-- `00EE` with entries on the stack pops the newest into `pc`, unmasked; the entry stays as a stale value and nothing
else changes (40_flow.md, 00EE). -/
def Obligations.ReturnPopsIntoPc : Prop :=
  ∀ (s : State), 0 < s.sp.val → ∃ (t : State) (h : s.sp.val - 1 < 16), exec .ret s = .next t ∧
    t.pc = s.stack[s.sp.val - 1] ∧ t.sp.val + 1 = s.sp.val ∧ t = { s with pc := t.pc, sp := t.sp } ∧ s.bytesUnchanged t

/-- A call and a later return, with the stack as the call left it, bring `pc` to the address after the call and the
depth to what it was (40_flow.md, 00EE: the source's own property). -/
def Obligations.ReturnGoesBackBehindTheCall : Prop :=
  ∀ (nnn : Addr) (s u : State), s.sp.val < 16 → (∀ t, exec (.call nnn) s = .next t → u.stack = t.stack ∧ u.sp = t.sp) →
    ∃ w, exec .ret u = .next w ∧ w.pc = s.pc ∧ w.sp = s.sp

/-- R83, R84, R85, R86: the four register skips, each the `skip` of R88 under its comparison and nothing otherwise, with
their encodings; `5XYn` and `9XYn` with `n != 0` are no instructions. -/
def Obligations.RegisterSkipsFollowTheirComparison : Prop :=
  (∀ (x : Reg) (kk : Byte) (s : State),
    (encode (.seImm x kk)).toNat = 0x3000 + x.val * 256 + kk.toNat ∧
    (encode (.sneImm x kk)).toNat = 0x4000 + x.val * 256 + kk.toNat ∧
    exec (.seImm x kk) s = .next (if (s.reg x).toNat = kk.toNat then s.skip else s) ∧
    exec (.sneImm x kk) s = .next (if (s.reg x).toNat = kk.toNat then s else s.skip)) ∧
  (∀ (x y : Reg) (s : State),
    (encode (.seReg x y)).toNat = 0x5000 + x.val * 256 + y.val * 16 ∧
    (encode (.sneReg x y)).toNat = 0x9000 + x.val * 256 + y.val * 16 ∧
    exec (.seReg x y) s = .next (if (s.reg x).toNat = (s.reg y).toNat then s.skip else s) ∧
    exec (.sneReg x y) s = .next (if (s.reg x).toNat = (s.reg y).toNat then s else s.skip)) ∧
  (∀ op : Word, op.toNat / 4096 = 5 ∨ op.toNat / 4096 = 9 → op.toNat % 16 ≠ 0 →
    decodeWord op = .error (.invalidOpcode op))

/-- The `skip` of 40_flow.md adds 2 to `pc` modulo 2^16, not masked to 12 bits, and changes nothing else (D4, log 12). -/
def Obligations.SkipAddsTwoToPc : Prop :=
  ∀ s : State, s.skip.pc.toNat = (s.pc.toNat + 2) % 65536 ∧ s.skip = { s with pc := s.skip.pc } ∧ s.bytesUnchanged s.skip

/-- `BNNN` jumps to `NNN + V[0]` in COSMAC mode and to `NNN + V[x]` otherwise, masked to 12 bits, and changes nothing
else (40_flow.md, BNNN; D6, log 14). -/
def Obligations.OffsetJumpAddsItsRegister : Prop :=
  ∀ (nnn : Addr) (x : Reg) (s : State), (encode (.jpOffset nnn x)).toNat = 0xB000 + nnn.toNat ∧
    ∃ t, exec (.jpOffset nnn x) s = .next t ∧
      (s.cosmacMode = true → t.pc.toNat = (nnn.toNat + (s.reg 0).toNat) % 4096) ∧
      (s.cosmacMode = false → t.pc.toNat = (nnn.toNat + (s.reg x).toNat) % 4096) ∧
      t = { s with pc := t.pc } ∧ s.bytesUnchanged t

/-! ## Registers and ALU (spec/41_alu.md) -/

/-- R100, R102: `6XKK` and `8XY0` write `V[x]` and nothing else; `VF` changes only as the destination. -/
def Obligations.LoadsWriteTheirRegister : Prop :=
  (∀ (x : Reg) (kk : Byte) (s : State), (encode (.ldImm x kk)).toNat = 0x6000 + x.val * 256 + kk.toNat ∧
    ∃ t, exec (.ldImm x kk) s = .next t ∧ t.reg x = kk ∧ s.regsUnchangedBut t [x] ∧ t = { s with V := t.V } ∧
      s.bytesUnchanged t) ∧
  (∀ (x y : Reg) (s : State), (encode (.ldReg x y)).toNat = 0x8000 + x.val * 256 + y.val * 16 ∧
    ∃ t, exec (.ldReg x y) s = .next t ∧ t.reg x = s.reg y ∧ s.regsUnchangedBut t [x] ∧ t = { s with V := t.V } ∧
      s.bytesUnchanged t)

/-- R101: `7XKK` adds modulo 256 and writes no flag. -/
def Obligations.AddImmediateWrapsWithoutFlag : Prop :=
  ∀ (x : Reg) (kk : Byte) (s : State), (encode (.addImm x kk)).toNat = 0x7000 + x.val * 256 + kk.toNat ∧
    ∃ t, exec (.addImm x kk) s = .next t ∧ (t.reg x).toNat = ((s.reg x).toNat + kk.toNat) % 256 ∧
      s.regsUnchangedBut t [x] ∧ t = { s with V := t.V } ∧ s.bytesUnchanged t

/-- R103, R104, R105: OR, AND and XOR, bit by bit; `VF` is forced to 0 afterward in COSMAC mode and otherwise written
only as the destination. -/
def Obligations.LogicClearsFlagInCosmacMode : Prop :=
  ∀ (x y : Reg) (s : State) (i : Instr) (f : Bool → Bool → Bool) (pattern : Nat),
    (i = .orReg x y ∧ f = or ∧ pattern = 0x8001) ∨ (i = .andReg x y ∧ f = and ∧ pattern = 0x8002) ∨
      (i = .xorReg x y ∧ f = xor ∧ pattern = 0x8003) →
    (encode i).toNat = pattern + x.val * 256 + y.val * 16 ∧
    ∃ t, exec i s = .next t ∧
      (¬(x = VF ∧ s.cosmacMode = true) →
        ∀ k < 8, (t.reg x).getLsbD k = f ((s.reg x).getLsbD k) ((s.reg y).getLsbD k)) ∧
      (s.cosmacMode = true → t.reg VF = 0) ∧ (s.cosmacMode = false → x ≠ VF → t.reg VF = s.reg VF) ∧
      s.regsUnchangedBut t [x, VF] ∧ t = { s with V := t.V } ∧ s.bytesUnchanged t

/-- R106: `8XY4` leaves the sum modulo 256 in `V[x]` and the carry of the exact sum in `VF`, the flag winning when
`x = 0xF`; both operands are read first. -/
def Obligations.AddSetsCarry : Prop :=
  ∀ (x y : Reg) (s : State), (encode (.addReg x y)).toNat = 0x8004 + x.val * 256 + y.val * 16 ∧
    ∃ t, exec (.addReg x y) s = .next t ∧
      (x ≠ VF → (t.reg x).toNat = ((s.reg x).toNat + (s.reg y).toNat) % 256) ∧
      (t.reg VF).toNat = (if 255 < (s.reg x).toNat + (s.reg y).toNat then 1 else 0) ∧
      s.regsUnchangedBut t [x, VF] ∧ t = { s with V := t.V } ∧ s.bytesUnchanged t

/-- R107, R109: `8XY5` and `8XY7` leave the difference modulo 256 in `V[x]` and NOT-borrow in `VF`, equality included,
the flag winning when `x = 0xF`; neither is gated by a mode. -/
def Obligations.SubtractsSetNotBorrow : Prop :=
  ∀ (x y : Reg) (s : State),
    (encode (.subReg x y)).toNat = 0x8005 + x.val * 256 + y.val * 16 ∧
    (encode (.subnReg x y)).toNat = 0x8007 + x.val * 256 + y.val * 16 ∧
    (∃ t, exec (.subReg x y) s = .next t ∧
      (x ≠ VF → (t.reg x).toNat = ((s.reg x).toNat + 256 - (s.reg y).toNat) % 256) ∧
      (t.reg VF).toNat = (if (s.reg y).toNat ≤ (s.reg x).toNat then 1 else 0) ∧
      s.regsUnchangedBut t [x, VF] ∧ t = { s with V := t.V } ∧ s.bytesUnchanged t) ∧
    (∃ t, exec (.subnReg x y) s = .next t ∧
      (x ≠ VF → (t.reg x).toNat = ((s.reg y).toNat + 256 - (s.reg x).toNat) % 256) ∧
      (t.reg VF).toNat = (if (s.reg x).toNat ≤ (s.reg y).toNat then 1 else 0) ∧
      s.regsUnchangedBut t [x, VF] ∧ t = { s with V := t.V } ∧ s.bytesUnchanged t)

/-- `8XY6` and `8XYE` shift `V[y]` in COSMAC mode and `V[x]` otherwise by one place and put the bit shifted out into
`VF`, the flag winning when `x = 0xF` (41_alu.md, 8XY6 and 8XYE; that the flag is written last in the shifts is D13,
log 17). -/
def Obligations.ShiftsPutTheBitOutIntoFlag : Prop :=
  ∀ (x y : Reg) (s : State) (v : Byte), v = (if s.cosmacMode then s.reg y else s.reg x) →
    (∃ t, exec (.shr x y) s = .next t ∧ (x ≠ VF → (t.reg x).toNat = v.toNat / 2) ∧ (t.reg VF).toNat = v.toNat % 2 ∧
      s.regsUnchangedBut t [x, VF] ∧ t = { s with V := t.V } ∧ s.bytesUnchanged t) ∧
    (∃ t, exec (.shl x y) s = .next t ∧ (x ≠ VF → (t.reg x).toNat = v.toNat * 2 % 256) ∧
      (t.reg VF).toNat = v.toNat / 128 ∧
      s.regsUnchangedBut t [x, VF] ∧ t = { s with V := t.V } ∧ s.bytesUnchanged t)

/-- `CXKK` leaves `rand & KK` in `V[x]`, so no bit that `KK` lacks; the byte is the free draw of this execution, and the
next execution has another draw (41_alu.md, CXKK; the draw's form is the model's own, D21, log 2). It holds whatever
the draw is. -/
def Obligations.RandomIsMaskedByImmediate : Prop :=
  ∀ (x : Reg) (kk : Byte) (s : State), ∃ t, exec (.rnd x kk) s = .next t ∧
    (∀ k < 8, (t.reg x).getLsbD k = ((Config.randByte s.draws).getLsbD k && kk.getLsbD k)) ∧
    t.rand = Config.randByte (s.draws + 1) ∧
    s.regsUnchangedBut t [x] ∧ t = { s with V := t.V, draws := s.draws + 1 } ∧ s.bytesUnchanged t

/-! ## Index register and memory (spec/42_index_memory.md) -/

/-- R120: `ANNN` puts `NNN` into `I` and changes nothing else. -/
def Obligations.LoadIndexPutsItsAddressInI : Prop :=
  ∀ (nnn : Addr) (s : State), (encode (.ldI nnn)).toNat = 0xA000 + nnn.toNat ∧
    ∃ t, exec (.ldI nnn) s = .next t ∧ t.I.toNat = nnn.toNat ∧ t = { s with I := t.I } ∧ s.bytesUnchanged t

/-- `FX1E` adds `V[x]` to `I` and clamps at `0xFFF`; `VF` becomes 1 only when the sum exceeds `0xFFF` in Amiga mode and
is otherwise not written (42_index_memory.md, FX1E; D14, log 18). -/
def Obligations.AddToIndexClampsAtFFF : Prop :=
  ∀ (x : Reg) (s : State), ∃ t, exec (.addI x) s = .next t ∧
    t.I.toNat = min (s.I.toNat + (s.reg x).toNat) 0xFFF ∧
    (s.amigaMode = true ∧ 0xFFF < s.I.toNat + (s.reg x).toNat → t.reg VF = 1) ∧
    (¬(s.amigaMode = true ∧ 0xFFF < s.I.toNat + (s.reg x).toNat) → t.reg VF = s.reg VF) ∧
    s.regsUnchangedBut t [VF] ∧ t = { s with I := t.I, V := t.V } ∧ s.bytesUnchanged t

/-- `FX29` points `I` at the glyph of the low nibble of `V[x]`: `0x050 + 5 * (V[x] & 0xF)`, at most `0x09B`, memory not
accessed (42_index_memory.md, FX29). -/
def Obligations.FontAddressIsFiveBytesPerGlyph : Prop :=
  ∀ (x : Reg) (s : State), ∃ t, exec (.ldFont x) s = .next t ∧ t.I.toNat = 0x050 + 5 * ((s.reg x).toNat % 16) ∧
    t.I.toNat ≤ 0x09B ∧ t = { s with I := t.I } ∧ s.bytesUnchanged t

/-- `FX33` stores the hundreds, tens and units digits of `V[x]` at `I`, `I + 1`, `I + 2`, each address truncated to 12
bits, and changes no other byte and nothing else (42_index_memory.md, FX33; D5, log 13). -/
def Obligations.BcdStoresThreeDigits : Prop :=
  ∀ (x : Reg) (s : State), Memory.wf s.mem → ∃ t, exec (.storeBcd x) s = .next t ∧
    (t.readByte (s.blockAddr 0)).toNat = (s.reg x).toNat / 100 ∧
    (t.readByte (s.blockAddr 1)).toNat = (s.reg x).toNat / 10 % 10 ∧
    (t.readByte (s.blockAddr 2)).toNat = (s.reg x).toNat % 10 ∧
    s.bytesUnchangedBut t (s.blockAddr 0) 3 ∧ t = { s with mem := t.mem } ∧ Memory.wf t.mem

/-- `FX55` stores `V[0]` to `V[x]` at `I`, `I + 1`, …, changes no other byte, and advances `I` by `x + 1` in COSMAC mode
only (42_index_memory.md, FX55; addresses and the new `I` truncated to 12 bits, D5, D7, logs 13, 15). -/
def Obligations.StoreRegistersWritesTheBlock : Prop :=
  ∀ (x : Reg) (s : State), Memory.wf s.mem → ∃ t, exec (.storeRegs x) s = .next t ∧
    (∀ r : Reg, r ≤ x → t.readByte (s.blockAddr r.val) = s.reg r) ∧
    s.bytesUnchangedBut t (s.blockAddr 0) (x.val + 1) ∧
    (s.cosmacMode = true → t.I.toNat = (s.I.toNat + x.val + 1) % 4096) ∧ (s.cosmacMode = false → t.I = s.I) ∧
    t = { s with mem := t.mem, I := t.I } ∧ Memory.wf t.mem

/-- `FX65` loads `V[0]` to `V[x]` from `I`, `I + 1`, …, leaves the other registers and memory, and advances `I` by
`x + 1` in COSMAC mode only (42_index_memory.md, FX65; D5, D7, logs 13, 15). -/
def Obligations.LoadRegistersReadsTheBlock : Prop :=
  ∀ (x : Reg) (s : State), ∃ t, exec (.loadRegs x) s = .next t ∧
    (∀ r : Reg, r ≤ x → t.reg r = s.readByte (s.blockAddr r.val)) ∧ (∀ r : Reg, x < r → t.reg r = s.reg r) ∧
    (s.cosmacMode = true → t.I.toNat = (s.I.toNat + x.val + 1) % 4096) ∧ (s.cosmacMode = false → t.I = s.I) ∧
    t = { s with V := t.V, I := t.I } ∧ s.bytesUnchanged t

/-- Registers stored by `FX55` come back by `FX65` with the same `I`, in both modes, also where the block wraps past
`0xFFF` (42_index_memory.md, FX55 and FX65; D5, log 13). -/
def Obligations.LoadAfterStoreGivesTheRegistersBack : Prop :=
  ∀ (x : Reg) (s t u : State), Memory.wf s.mem → exec (.storeRegs x) s = .next t → u.mem = t.mem → u.I = s.I →
    ∃ w, exec (.loadRegs x) u = .next w ∧ ∀ r : Reg, r ≤ x → w.reg r = s.reg r

/-! ## Display (spec/43_display.md) -/

/-- `00E0` clears all 2048 pixels and sets `render_pending`, also when nothing was lit; `VF` and everything else stay
(43_display.md, 00E0; D15, log 19). -/
def Obligations.ClearDisplayZeroesEveryPixel : Prop :=
  ∀ s : State, ∃ t, exec .cls s = .next t ∧ (∀ row col, t.display.get row col = false) ∧ t.renderPending = true ∧
    t = { s with display := t.display, renderPending := t.renderPending } ∧ s.bytesUnchanged t

/-- `DXYN` leaves the old display XOR the placed sprite; `VF` is 1 exactly when a set pixel was covered and 0
otherwise, also for `N = 0` and in both modes; the coordinates are the old registers; `render_pending` is set
(43_display.md, DXYN and the geometry of a sprite; D5, D15, D16, D17, D32, logs 13, 19, 20, 21, 31). -/
def Obligations.DrawIsXorWithThePlacedSprite : Prop :=
  ∀ (x y : Reg) (n : Fin 16) (s : State) (x0 y0 : Nat),
    x0 = (s.reg x).toNat % 64 → y0 = (s.reg y).toNat % 32 →
    ∃ t, exec (.drw x y n) s = .next t ∧
      (∀ row col, t.display.get row col = true ↔
        (s.display.get row col = true ↔ ¬s.spriteCovers x0 y0 n.val row col)) ∧
      (t.reg VF = 1 ↔ ∃ row col, s.display.get row col = true ∧ s.spriteCovers x0 y0 n.val row col) ∧
      (t.reg VF = 0 ↔ ¬∃ row col, s.display.get row col = true ∧ s.spriteCovers x0 y0 n.val row col) ∧
      t.renderPending = true ∧ s.regsUnchangedBut t [VF] ∧
      t = { s with display := t.display, V := t.V, renderPending := t.renderPending } ∧ s.bytesUnchanged t

/-- Drawing a sprite twice at the same place restores the display, and the second draw reports a collision exactly when
the first lit a pixel (43_display.md, DXYN: the source's own property; a coordinate in `VF` would not be the same place
the second time). -/
def Obligations.DrawingTwiceRestoresTheDisplay : Prop :=
  ∀ (x y : Reg) (n : Fin 16) (s t u : State), x ≠ VF → y ≠ VF →
    exec (.drw x y n) s = .next t → exec (.drw x y n) t = .next u →
    u.display = s.display ∧
      (u.reg VF = 1 ↔ ∃ row col, s.display.get row col = false ∧ t.display.get row col = true)

/-! ## Keys and timers (spec/44_keys_timers.md) -/

/-- R140, R141: `EX9E` skips when the key of the low nibble of `V[x]` is pressed, `EXA1` when it is not; nothing else
changes, the keys included. -/
def Obligations.KeySkipsTestTheLowNibbleKey : Prop :=
  ∀ (x : Reg) (s : State) (k : Key), k.val = (s.reg x).toNat % 16 →
    (encode (.skp x)).toNat = 0xE09E + x.val * 256 ∧ (encode (.sknp x)).toNat = 0xE0A1 + x.val * 256 ∧
    exec (.skp x) s = .next (if s.key k = true then s.skip else s) ∧
    exec (.sknp x) s = .next (if s.key k = true then s else s.skip)

/-- `FX0A` with `cosmac_mode = 0`: with a key down, the lowest goes to `V[x]` and nothing else changes; with none, the
STEP leaves `pc` at the instruction and changes nothing (44_keys_timers.md, FX0A; D4, log 12). -/
def Obligations.KeyWaitTakesTheLowestPressedKey : Prop :=
  ∀ (x : Reg) (s : State), s.cosmacMode = false →
    (∀ k : Key, s.key k = true → (∀ j, j < k → s.key j = false) → ∃ t, exec (.waitKey x) s = .next t ∧
      (t.reg x).toNat = k.val ∧ s.regsUnchangedBut t [x] ∧ t = { s with V := t.V } ∧ s.bytesUnchanged t) ∧
    ((∀ k : Key, s.key k = false) → exec (.waitKey x) s.advance = .next { s with started := true })

/-- `FX0A` with `cosmac_mode = 1`: with no latch, the lowest pressed key is latched and the wait goes on; a latched key
still held keeps waiting, other keys ignored; once it is released, its index goes to `V[x]` and the latch is cleared
(44_keys_timers.md, FX0A; D4, D18, logs 12, 22). -/
def Obligations.CosmacKeyWaitLatchesThenTakesTheRelease : Prop :=
  ∀ (x : Reg) (s : State), s.cosmacMode = true →
    (s.latch = none → (∀ k : Key, s.key k = false) → exec (.waitKey x) s.advance = .next { s with started := true }) ∧
    (s.latch = none → ∀ k : Key, s.key k = true → (∀ j, j < k → s.key j = false) →
      exec (.waitKey x) s.advance = .next { s with latch := some k, started := true }) ∧
    (∀ j : Key, s.latch = some j → s.key j = true → exec (.waitKey x) s.advance = .next { s with started := true }) ∧
    (∀ j : Key, s.latch = some j → s.key j = false → ∃ t, exec (.waitKey x) s = .next t ∧ (t.reg x).toNat = j.val ∧
      t.latch = none ∧ s.regsUnchangedBut t [x] ∧ t = { s with V := t.V, latch := t.latch } ∧ s.bytesUnchanged t)

/-- `FX07` copies `DT` to `V[x]`, `FX15` copies `V[x]` to `DT`, `FX18` copies `V[x]` to `ST`, and nothing else changes
(44_keys_timers.md; the directions are general knowledge of the spec, D19, log 23). -/
def Obligations.TimerCopiesGoOneWay : Prop :=
  ∀ (x : Reg) (s : State),
    (encode (.readDT x)).toNat = 0xF007 + x.val * 256 ∧ (encode (.setDT x)).toNat = 0xF015 + x.val * 256 ∧
    (encode (.setST x)).toNat = 0xF018 + x.val * 256 ∧
    (∃ t, exec (.readDT x) s = .next t ∧ t.reg x = s.DT ∧ s.regsUnchangedBut t [x] ∧ t = { s with V := t.V } ∧
      s.bytesUnchanged t) ∧
    exec (.setDT x) s = .next { s with DT := s.reg x } ∧ exec (.setST x) s = .next { s with ST := s.reg x }
end

