-- ==== Sys2Proof/Laws/Decode.lean ====
section
/-! SUPPORT. The decoder and the encoder: the rows of the map are disjoint, so the row a word hits is the row that
decodes it; and what the fields of an encoded word are, format by format. -/

namespace Sys2Proof

/-- No word hits two rows: on the bits both masks cover the patterns differ (R64). -/
theorem opcodeTable_disjoint : opcodeTable.Pairwise fun r q => r.pattern &&& q.mask ≠ q.pattern &&& r.mask := by decide

theorem OpcodeRow.hits_iff {r : OpcodeRow} {op : Word} : r.hits op = true ↔ op &&& r.mask = r.pattern := by
  simp [OpcodeRow.hits]

/-- Rows that differ on their common bits are not hit by one word. -/
theorem OpcodeRow.not_hits_both {r q : OpcodeRow} {op : Word} (h : r.pattern &&& q.mask ≠ q.pattern &&& r.mask)
    (hr : r.hits op = true) : q.hits op = false := by
  rw [Bool.eq_false_iff]
  intro hq
  rw [OpcodeRow.hits_iff] at hr hq
  exact h (by rw [← hr, ← hq, BitVec.and_assoc, BitVec.and_assoc, BitVec.and_comm r.mask])

/-- In a list of pairwise disjoint rows the first row hit is the row hit. -/
theorem find_row {rows : List OpcodeRow}
    (hd : rows.Pairwise fun r q => r.pattern &&& q.mask ≠ q.pattern &&& r.mask) {r : OpcodeRow} (hr : r ∈ rows)
    {op : Word} (h : r.hits op = true) : rows.find? (·.hits op) = some r := by
  induction rows with
  | nil => cases hr
  | cons q rows ih =>
    obtain ⟨hq, hd⟩ := List.pairwise_cons.1 hd
    rcases List.mem_cons.1 hr with rfl | hr
    · simp [h]
    · rw [List.find?_cons_of_neg, ih hd hr]
      rw [OpcodeRow.not_hits_both (Ne.symm (hq r hr)) h]
      decide

/-- A word that hits a row decodes to that row's instruction. -/
theorem decodeWord_of_row {r : OpcodeRow} (hr : r ∈ opcodeTable) {op : Word} (h : r.hits op = true) :
    decodeWord op = .ok (r.build op) := by
  rw [decodeWord, find_row opcodeTable_disjoint hr h]

/-- A word that decodes hits the row it decodes by. -/
theorem decodeWord_ok {op : Word} {i : Instr} (h : decodeWord op = .ok i) :
    ∃ r ∈ opcodeTable, r.hits op = true ∧ r.build op = i := by
  unfold decodeWord at h
  split at h
  · next r hr => exact ⟨r, List.mem_of_find?_eq_some hr, List.find?_some (p := fun r : OpcodeRow => r.hits op) hr, by simpa using h⟩
  · cases h

/-- A word that hits no row is an invalid opcode, and only such a word. -/
theorem decodeWord_error {op : Word} {e : Reject} (h : decodeWord op = .error e) :
    e = .invalidOpcode op ∧ ∀ r ∈ opcodeTable, r.hits op = false := by
  unfold decodeWord at h
  split at h
  · cases h
  · next hn =>
    refine ⟨by simpa using h.symm, fun r hr => ?_⟩
    simpa using List.find?_eq_none.1 hn r hr

/-- The two bytes of a word make that word again (R44). -/
@[simp] theorem wordOfBytes_split (op : Word) : wordOfBytes (op.extractLsb' 8 8) (op.extractLsb' 0 8) = op := by
  refine BitVec.eq_of_getLsbD_eq fun i hi => ?_
  simp only [wordOfBytes, BitVec.getLsbD_append, BitVec.getLsbD_extractLsb']
  rcases Nat.lt_or_ge i 8 with h | h
  · simp [h]
  · simp [show i - 8 < 8 by omega, show 8 + (i - 8) = i by omega, Nat.not_lt.2 h]

/-- The number of a word from its two bytes (R44). -/
theorem wordOfBytes_toNat (b0 b1 : Byte) : (wordOfBytes b0 b1).toNat = b0.toNat * 256 + b1.toNat := by
  have := b1.isLt
  rw [wordOfBytes, BitVec.toNat_append, Nat.shiftLeft_eq, Nat.mul_comm, ← Nat.two_pow_add_eq_or_of_lt (by omega)]

/-- A word masked byte by byte. -/
theorem wordOfBytes_and (b0 b1 m0 m1 : Byte) :
    wordOfBytes b0 b1 &&& wordOfBytes m0 m1 = wordOfBytes (b0 &&& m0) (b1 &&& m1) := BitVec.and_append

theorem word_and_toNat (op : Word) (m0 m1 : Byte) : (op &&& wordOfBytes m0 m1).toNat =
    (op.extractLsb' 8 8 &&& m0).toNat * 256 + (op.extractLsb' 0 8 &&& m1).toNat := by
  rw [← wordOfBytes_toNat, ← wordOfBytes_and, wordOfBytes_split]

/-- The three kinds of mask in R64 keep the top nibble and nothing, the low nibble or the low byte. -/
theorem byte_masks (b : Byte) : (b &&& 0xF0).toNat = b.toNat / 16 * 16 ∧ (b &&& 0x0F).toNat = b.toNat % 16 ∧
    (b &&& 0xFF) = b ∧ (b &&& 0x00) = 0 := by
  revert b
  decide

theorem mask_F000 (op : Word) : (op &&& 0xF000).toNat = op.toNat / 4096 * 4096 := by
  rw [show (0xF000 : Word) = wordOfBytes 0xF0 0x00 from rfl, word_and_toNat, (byte_masks _).1, (byte_masks _).2.2.2]
  simp [BitVec.extractLsb'_toNat, Nat.shiftRight_eq_div_pow]
  omega

theorem mask_F00F (op : Word) : (op &&& 0xF00F).toNat = op.toNat / 4096 * 4096 + op.toNat % 16 := by
  rw [show (0xF00F : Word) = wordOfBytes 0xF0 0x0F from rfl, word_and_toNat, (byte_masks _).1, (byte_masks _).2.1]
  simp [BitVec.extractLsb'_toNat, Nat.shiftRight_eq_div_pow]
  omega

theorem mask_F0FF (op : Word) : (op &&& 0xF0FF).toNat = op.toNat / 4096 * 4096 + op.toNat % 256 := by
  rw [show (0xF0FF : Word) = wordOfBytes 0xF0 0xFF from rfl, word_and_toNat, (byte_masks _).1, (byte_masks _).2.2.1]
  simp [BitVec.extractLsb'_toNat, Nat.shiftRight_eq_div_pow]
  omega

theorem mask_FFFF (op : Word) : op &&& 0xFFFF = op := BitVec.and_allOnes

/-- Decoding bytes is decoding the word of the first two. -/
theorem decode_bytesOfWord (op : Word) (rest : List Byte) :
    decode (bytesOfWord op ++ rest) = (decodeWord op).map (·, rest) := by
  simp only [bytesOfWord, List.cons_append, List.nil_append, decode, wordOfBytes_split]
  cases decodeWord op <;> rfl

/-! ### The fields of a word put together from parts -/

theorem fieldX_or (a b : Word) : fieldX (a ||| b) = (a.extractLsb' 8 4 ||| b.extractLsb' 8 4).toFin := by
  rw [fieldX, BitVec.extractLsb'_or]

theorem fieldY_or (a b : Word) : fieldY (a ||| b) = (a.extractLsb' 4 4 ||| b.extractLsb' 4 4).toFin := by
  rw [fieldY, BitVec.extractLsb'_or]

theorem fieldN_or (a b : Word) : fieldN (a ||| b) = (a.extractLsb' 0 4 ||| b.extractLsb' 0 4).toFin := by
  rw [fieldN, BitVec.extractLsb'_or]

theorem fieldKK_or (a b : Word) : fieldKK (a ||| b) = fieldKK a ||| fieldKK b := BitVec.extractLsb'_or

theorem fieldNNN_or (a b : Word) : fieldNNN (a ||| b) = fieldNNN a ||| fieldNNN b := BitVec.extractLsb'_or

/-- The bits of a nibble placed at bit 8. -/
theorem nibbleAt_eight (x : Fin 16) :
    nibbleAt x 8 &&& 0xF000 = 0 ∧ nibbleAt x 8 &&& 0x0FFF = nibbleAt x 8 ∧ (nibbleAt x 8).extractLsb' 8 4 = BitVec.ofFin x ∧
      (nibbleAt x 8).extractLsb' 4 4 = 0 ∧ (nibbleAt x 8).extractLsb' 0 4 = 0 ∧ fieldKK (nibbleAt x 8) = 0 := by
  revert x; decide

/-- The bits of a nibble placed at bit 4. -/
theorem nibbleAt_four (y : Fin 16) :
    nibbleAt y 4 &&& 0xF000 = 0 ∧ (nibbleAt y 4).extractLsb' 8 4 = 0 ∧
      (nibbleAt y 4).extractLsb' 4 4 = BitVec.ofFin y ∧ (nibbleAt y 4).extractLsb' 0 4 = 0 := by
  revert y; decide

/-- The bits of a nibble placed at bit 0. -/
theorem nibbleAt_zero (n : Fin 16) :
    nibbleAt n 0 &&& 0xF000 = 0 ∧ (nibbleAt n 0).extractLsb' 8 4 = 0 ∧ (nibbleAt n 0).extractLsb' 4 4 = 0 ∧
      (nibbleAt n 0).extractLsb' 0 4 = BitVec.ofFin n := by
  revert n; decide

/-- The bits of an immediate byte. -/
theorem setWidth_byte (kk : Byte) :
    kk.setWidth 16 &&& (0xF000 : Word) = 0 ∧ ((kk.setWidth 16 : Word).extractLsb' 8 4) = 0 ∧
      fieldKK (kk.setWidth 16) = kk := by
  revert kk; decide

/-- The bits of an address field. -/
theorem setWidth_addr (nnn : Addr) :
    nnn.setWidth 16 &&& (0xF000 : Word) = 0 ∧ fieldNNN (nnn.setWidth 16) = nnn ∧
      ((nnn.setWidth 16 : Word).extractLsb' 8 4).toNat = nnn.toNat / 256 := by
  have hn := nnn.isLt
  refine ⟨?_, ?_, ?_⟩
  · refine BitVec.eq_of_getLsbD_eq fun i hi => ?_
    rcases Nat.lt_or_ge i 12 with h | h
    · have : (0xF000 : Word).getLsbD i = false := by interval_cases i <;> rfl
      rw [BitVec.getLsbD_and, this, Bool.and_false]
      exact BitVec.getLsbD_zero.symm
    · simp [BitVec.getLsbD_of_ge nnn i h]
  · refine BitVec.eq_of_toNat_eq ?_
    simp [fieldNNN, BitVec.extractLsb'_toNat]
    omega
  · simp [BitVec.extractLsb'_toNat, Nat.shiftRight_eq_div_pow]
    omega

/-- The word of the format XKK: its top nibble and its fields. -/
theorem encodeXKK_fields {p : Word} (hp : p &&& 0x0FFF = 0) (x : Reg) (kk : Byte) :
    encodeXKK p x kk &&& 0xF000 = p &&& 0xF000 ∧ fieldX (encodeXKK p x kk) = x ∧ fieldKK (encodeXKK p x kk) = kk := by
  obtain ⟨h1, -, h2, -, -, h3⟩ := nibbleAt_eight x
  obtain ⟨k1, k2, k3⟩ := setWidth_byte kk
  have p1 : p.extractLsb' 8 4 = 0 := by
    rw [← show (p &&& 0x0FFF).extractLsb' 8 4 = p.extractLsb' 8 4 by rw [BitVec.extractLsb'_and]; exact BitVec.and_allOnes, hp]
    rfl
  have p2 : fieldKK p = 0 := by
    rw [← show fieldKK (p &&& 0x0FFF) = fieldKK p by rw [fieldKK, BitVec.extractLsb'_and]; exact BitVec.and_allOnes, hp]
    rfl
  refine ⟨?_, ?_, ?_⟩
  · rw [encodeXKK, BitVec.and_comm, BitVec.and_or_distrib_left, BitVec.and_or_distrib_left, BitVec.and_comm _ (nibbleAt x 8),
      h1, BitVec.and_comm _ (kk.setWidth 16), k1]
    simp [BitVec.and_comm]
  · rw [encodeXKK, fieldX_or, BitVec.extractLsb'_or, p1, h2, k2]
    simp
  · rw [encodeXKK, fieldKK_or, fieldKK_or, p2, h3, k3]
    simp

/-- The word of the format NNN: its top nibble and its fields. -/
theorem encodeNNN_fields {p : Word} (hp : p &&& 0x0FFF = 0) (nnn : Addr) :
    encodeNNN p nnn &&& 0xF000 = p &&& 0xF000 ∧ fieldNNN (encodeNNN p nnn) = nnn ∧
      (fieldX (encodeNNN p nnn)).val = nnn.toNat / 256 := by
  obtain ⟨k1, k2, k3⟩ := setWidth_addr nnn
  have p1 : p.extractLsb' 8 4 = 0 := by
    rw [← show (p &&& 0x0FFF).extractLsb' 8 4 = p.extractLsb' 8 4 by rw [BitVec.extractLsb'_and]; exact BitVec.and_allOnes, hp]
    rfl
  have p2 : fieldNNN p = 0 := by
    rw [← show fieldNNN (p &&& 0x0FFF) = fieldNNN p by rw [fieldNNN, BitVec.extractLsb'_and]; exact BitVec.and_allOnes, hp]
    rfl
  refine ⟨?_, ?_, ?_⟩
  · rw [encodeNNN, BitVec.and_comm, BitVec.and_or_distrib_left, BitVec.and_comm _ (nnn.setWidth 16), k1]
    simp [BitVec.and_comm]
  · rw [encodeNNN, fieldNNN_or, p2, k2]
    simp
  · rw [encodeNNN, fieldX_or, p1]
    simpa using k3

/-- The word of `DXYN`: its top nibble and its fields. -/
theorem encode_drw_fields (x y : Reg) (n : Fin 16) :
    encode (.drw x y n) &&& 0xF000 = 0xD000 ∧ fieldX (encode (.drw x y n)) = x ∧ fieldY (encode (.drw x y n)) = y ∧
      fieldN (encode (.drw x y n)) = n := by
  obtain ⟨h1, -, h2, h3, h4, -⟩ := nibbleAt_eight x
  obtain ⟨k1, k2, k3, k4⟩ := nibbleAt_four y
  obtain ⟨n1, n2, n3, n4⟩ := nibbleAt_zero n
  refine ⟨?_, ?_, ?_, ?_⟩
  · rw [encode, encodeXY, BitVec.and_comm, BitVec.and_or_distrib_left, BitVec.and_or_distrib_left,
      BitVec.and_or_distrib_left, BitVec.and_comm _ (nibbleAt x 8), h1, BitVec.and_comm _ (nibbleAt y 4), k1,
      BitVec.and_comm _ (nibbleAt n 0), n1]
    rfl
  · rw [encode, encodeXY, fieldX_or, BitVec.extractLsb'_or, BitVec.extractLsb'_or, h2, k2, n2]
    simp
  · rw [encode, encodeXY, fieldY_or, BitVec.extractLsb'_or, BitVec.extractLsb'_or, h3, k3, n3]
    simp
  · rw [encode, encodeXY, fieldN_or, BitVec.extractLsb'_or, BitVec.extractLsb'_or, h4, k4, n4]
    simp

end Sys2Proof
end

