-- ==== Sys2Proof/Laws/State.lean ====
section
/-! SUPPORT. One lemma per field of State per update, true by rfl, and the accessors over the updates, so that no later
proof unfolds a record update. -/

namespace Sys2Proof.Machine

variable (s : State)

/-! ### State.setReg -/

@[simp] theorem State.setReg_V (x : Reg) (v : Byte) : (s.setReg x v).V = s.V.set x v := rfl
@[simp] theorem State.setReg_I (x : Reg) (v : Byte) : (s.setReg x v).I = s.I := rfl
@[simp] theorem State.setReg_pc (x : Reg) (v : Byte) : (s.setReg x v).pc = s.pc := rfl
@[simp] theorem State.setReg_stack (x : Reg) (v : Byte) : (s.setReg x v).stack = s.stack := rfl
@[simp] theorem State.setReg_sp (x : Reg) (v : Byte) : (s.setReg x v).sp = s.sp := rfl
@[simp] theorem State.setReg_DT (x : Reg) (v : Byte) : (s.setReg x v).DT = s.DT := rfl
@[simp] theorem State.setReg_ST (x : Reg) (v : Byte) : (s.setReg x v).ST = s.ST := rfl
@[simp] theorem State.setReg_mem (x : Reg) (v : Byte) : (s.setReg x v).mem = s.mem := rfl
@[simp] theorem State.setReg_display (x : Reg) (v : Byte) : (s.setReg x v).display = s.display := rfl
@[simp] theorem State.setReg_renderPending (x : Reg) (v : Byte) : (s.setReg x v).renderPending = s.renderPending := rfl
@[simp] theorem State.setReg_latch (x : Reg) (v : Byte) : (s.setReg x v).latch = s.latch := rfl
@[simp] theorem State.setReg_keys (x : Reg) (v : Byte) : (s.setReg x v).keys = s.keys := rfl
@[simp] theorem State.setReg_cosmacMode (x : Reg) (v : Byte) : (s.setReg x v).cosmacMode = s.cosmacMode := rfl
@[simp] theorem State.setReg_amigaMode (x : Reg) (v : Byte) : (s.setReg x v).amigaMode = s.amigaMode := rfl
@[simp] theorem State.setReg_fault (x : Reg) (v : Byte) : (s.setReg x v).fault = s.fault := rfl
@[simp] theorem State.setReg_started (x : Reg) (v : Byte) : (s.setReg x v).started = s.started := rfl
@[simp] theorem State.setReg_draws (x : Reg) (v : Byte) : (s.setReg x v).draws = s.draws := rfl
@[simp] theorem State.setReg_schedule (x : Reg) (v : Byte) : (s.setReg x v).schedule = s.schedule := rfl
@[simp] theorem State.setReg_key (x : Reg) (v : Byte) (j : Key) : (s.setReg x v).key j = s.key j := rfl
@[simp] theorem State.setReg_readByte (x : Reg) (v : Byte) (b' : Nat) : (s.setReg x v).readByte b' = s.readByte b' := rfl
@[simp] theorem State.setReg_blockAddr (x : Reg) (v : Byte) (i : Nat) : (s.setReg x v).blockAddr i = s.blockAddr i := rfl
@[simp] theorem State.setReg_rand (x : Reg) (v : Byte) : (s.setReg x v).rand = s.rand := rfl

/-! ### State.setRegs -/

@[simp] theorem State.setRegs_V (vs : Vector Byte 16) : (s.setRegs vs).V = vs := rfl
@[simp] theorem State.setRegs_I (vs : Vector Byte 16) : (s.setRegs vs).I = s.I := rfl
@[simp] theorem State.setRegs_pc (vs : Vector Byte 16) : (s.setRegs vs).pc = s.pc := rfl
@[simp] theorem State.setRegs_stack (vs : Vector Byte 16) : (s.setRegs vs).stack = s.stack := rfl
@[simp] theorem State.setRegs_sp (vs : Vector Byte 16) : (s.setRegs vs).sp = s.sp := rfl
@[simp] theorem State.setRegs_DT (vs : Vector Byte 16) : (s.setRegs vs).DT = s.DT := rfl
@[simp] theorem State.setRegs_ST (vs : Vector Byte 16) : (s.setRegs vs).ST = s.ST := rfl
@[simp] theorem State.setRegs_mem (vs : Vector Byte 16) : (s.setRegs vs).mem = s.mem := rfl
@[simp] theorem State.setRegs_display (vs : Vector Byte 16) : (s.setRegs vs).display = s.display := rfl
@[simp] theorem State.setRegs_renderPending (vs : Vector Byte 16) : (s.setRegs vs).renderPending = s.renderPending := rfl
@[simp] theorem State.setRegs_latch (vs : Vector Byte 16) : (s.setRegs vs).latch = s.latch := rfl
@[simp] theorem State.setRegs_keys (vs : Vector Byte 16) : (s.setRegs vs).keys = s.keys := rfl
@[simp] theorem State.setRegs_cosmacMode (vs : Vector Byte 16) : (s.setRegs vs).cosmacMode = s.cosmacMode := rfl
@[simp] theorem State.setRegs_amigaMode (vs : Vector Byte 16) : (s.setRegs vs).amigaMode = s.amigaMode := rfl
@[simp] theorem State.setRegs_fault (vs : Vector Byte 16) : (s.setRegs vs).fault = s.fault := rfl
@[simp] theorem State.setRegs_started (vs : Vector Byte 16) : (s.setRegs vs).started = s.started := rfl
@[simp] theorem State.setRegs_draws (vs : Vector Byte 16) : (s.setRegs vs).draws = s.draws := rfl
@[simp] theorem State.setRegs_schedule (vs : Vector Byte 16) : (s.setRegs vs).schedule = s.schedule := rfl
@[simp] theorem State.setRegs_key (vs : Vector Byte 16) (j : Key) : (s.setRegs vs).key j = s.key j := rfl
@[simp] theorem State.setRegs_readByte (vs : Vector Byte 16) (b' : Nat) : (s.setRegs vs).readByte b' = s.readByte b' := rfl
@[simp] theorem State.setRegs_blockAddr (vs : Vector Byte 16) (i : Nat) : (s.setRegs vs).blockAddr i = s.blockAddr i := rfl
@[simp] theorem State.setRegs_rand (vs : Vector Byte 16) : (s.setRegs vs).rand = s.rand := rfl

/-! ### State.setI -/

@[simp] theorem State.setI_V (v : Word) : (s.setI v).V = s.V := rfl
@[simp] theorem State.setI_I (v : Word) : (s.setI v).I = v := rfl
@[simp] theorem State.setI_pc (v : Word) : (s.setI v).pc = s.pc := rfl
@[simp] theorem State.setI_stack (v : Word) : (s.setI v).stack = s.stack := rfl
@[simp] theorem State.setI_sp (v : Word) : (s.setI v).sp = s.sp := rfl
@[simp] theorem State.setI_DT (v : Word) : (s.setI v).DT = s.DT := rfl
@[simp] theorem State.setI_ST (v : Word) : (s.setI v).ST = s.ST := rfl
@[simp] theorem State.setI_mem (v : Word) : (s.setI v).mem = s.mem := rfl
@[simp] theorem State.setI_display (v : Word) : (s.setI v).display = s.display := rfl
@[simp] theorem State.setI_renderPending (v : Word) : (s.setI v).renderPending = s.renderPending := rfl
@[simp] theorem State.setI_latch (v : Word) : (s.setI v).latch = s.latch := rfl
@[simp] theorem State.setI_keys (v : Word) : (s.setI v).keys = s.keys := rfl
@[simp] theorem State.setI_cosmacMode (v : Word) : (s.setI v).cosmacMode = s.cosmacMode := rfl
@[simp] theorem State.setI_amigaMode (v : Word) : (s.setI v).amigaMode = s.amigaMode := rfl
@[simp] theorem State.setI_fault (v : Word) : (s.setI v).fault = s.fault := rfl
@[simp] theorem State.setI_started (v : Word) : (s.setI v).started = s.started := rfl
@[simp] theorem State.setI_draws (v : Word) : (s.setI v).draws = s.draws := rfl
@[simp] theorem State.setI_schedule (v : Word) : (s.setI v).schedule = s.schedule := rfl
@[simp] theorem State.setI_reg (v : Word) (r : Reg) : (s.setI v).reg r = s.reg r := rfl
@[simp] theorem State.setI_key (v : Word) (j : Key) : (s.setI v).key j = s.key j := rfl
@[simp] theorem State.setI_readByte (v : Word) (b' : Nat) : (s.setI v).readByte b' = s.readByte b' := rfl
@[simp] theorem State.setI_rand (v : Word) : (s.setI v).rand = s.rand := rfl

/-! ### State.setPc -/

@[simp] theorem State.setPc_V (v : Word) : (s.setPc v).V = s.V := rfl
@[simp] theorem State.setPc_I (v : Word) : (s.setPc v).I = s.I := rfl
@[simp] theorem State.setPc_pc (v : Word) : (s.setPc v).pc = v := rfl
@[simp] theorem State.setPc_stack (v : Word) : (s.setPc v).stack = s.stack := rfl
@[simp] theorem State.setPc_sp (v : Word) : (s.setPc v).sp = s.sp := rfl
@[simp] theorem State.setPc_DT (v : Word) : (s.setPc v).DT = s.DT := rfl
@[simp] theorem State.setPc_ST (v : Word) : (s.setPc v).ST = s.ST := rfl
@[simp] theorem State.setPc_mem (v : Word) : (s.setPc v).mem = s.mem := rfl
@[simp] theorem State.setPc_display (v : Word) : (s.setPc v).display = s.display := rfl
@[simp] theorem State.setPc_renderPending (v : Word) : (s.setPc v).renderPending = s.renderPending := rfl
@[simp] theorem State.setPc_latch (v : Word) : (s.setPc v).latch = s.latch := rfl
@[simp] theorem State.setPc_keys (v : Word) : (s.setPc v).keys = s.keys := rfl
@[simp] theorem State.setPc_cosmacMode (v : Word) : (s.setPc v).cosmacMode = s.cosmacMode := rfl
@[simp] theorem State.setPc_amigaMode (v : Word) : (s.setPc v).amigaMode = s.amigaMode := rfl
@[simp] theorem State.setPc_fault (v : Word) : (s.setPc v).fault = s.fault := rfl
@[simp] theorem State.setPc_started (v : Word) : (s.setPc v).started = s.started := rfl
@[simp] theorem State.setPc_draws (v : Word) : (s.setPc v).draws = s.draws := rfl
@[simp] theorem State.setPc_schedule (v : Word) : (s.setPc v).schedule = s.schedule := rfl
@[simp] theorem State.setPc_reg (v : Word) (r : Reg) : (s.setPc v).reg r = s.reg r := rfl
@[simp] theorem State.setPc_key (v : Word) (j : Key) : (s.setPc v).key j = s.key j := rfl
@[simp] theorem State.setPc_readByte (v : Word) (b' : Nat) : (s.setPc v).readByte b' = s.readByte b' := rfl
@[simp] theorem State.setPc_blockAddr (v : Word) (i : Nat) : (s.setPc v).blockAddr i = s.blockAddr i := rfl
@[simp] theorem State.setPc_rand (v : Word) : (s.setPc v).rand = s.rand := rfl

/-! ### State.setDT -/

@[simp] theorem State.setDT_V (v : Byte) : (s.setDT v).V = s.V := rfl
@[simp] theorem State.setDT_I (v : Byte) : (s.setDT v).I = s.I := rfl
@[simp] theorem State.setDT_pc (v : Byte) : (s.setDT v).pc = s.pc := rfl
@[simp] theorem State.setDT_stack (v : Byte) : (s.setDT v).stack = s.stack := rfl
@[simp] theorem State.setDT_sp (v : Byte) : (s.setDT v).sp = s.sp := rfl
@[simp] theorem State.setDT_DT (v : Byte) : (s.setDT v).DT = v := rfl
@[simp] theorem State.setDT_ST (v : Byte) : (s.setDT v).ST = s.ST := rfl
@[simp] theorem State.setDT_mem (v : Byte) : (s.setDT v).mem = s.mem := rfl
@[simp] theorem State.setDT_display (v : Byte) : (s.setDT v).display = s.display := rfl
@[simp] theorem State.setDT_renderPending (v : Byte) : (s.setDT v).renderPending = s.renderPending := rfl
@[simp] theorem State.setDT_latch (v : Byte) : (s.setDT v).latch = s.latch := rfl
@[simp] theorem State.setDT_keys (v : Byte) : (s.setDT v).keys = s.keys := rfl
@[simp] theorem State.setDT_cosmacMode (v : Byte) : (s.setDT v).cosmacMode = s.cosmacMode := rfl
@[simp] theorem State.setDT_amigaMode (v : Byte) : (s.setDT v).amigaMode = s.amigaMode := rfl
@[simp] theorem State.setDT_fault (v : Byte) : (s.setDT v).fault = s.fault := rfl
@[simp] theorem State.setDT_started (v : Byte) : (s.setDT v).started = s.started := rfl
@[simp] theorem State.setDT_draws (v : Byte) : (s.setDT v).draws = s.draws := rfl
@[simp] theorem State.setDT_schedule (v : Byte) : (s.setDT v).schedule = s.schedule := rfl
@[simp] theorem State.setDT_reg (v : Byte) (r : Reg) : (s.setDT v).reg r = s.reg r := rfl
@[simp] theorem State.setDT_key (v : Byte) (j : Key) : (s.setDT v).key j = s.key j := rfl
@[simp] theorem State.setDT_readByte (v : Byte) (b' : Nat) : (s.setDT v).readByte b' = s.readByte b' := rfl
@[simp] theorem State.setDT_blockAddr (v : Byte) (i : Nat) : (s.setDT v).blockAddr i = s.blockAddr i := rfl
@[simp] theorem State.setDT_rand (v : Byte) : (s.setDT v).rand = s.rand := rfl

/-! ### State.setST -/

@[simp] theorem State.setST_V (v : Byte) : (s.setST v).V = s.V := rfl
@[simp] theorem State.setST_I (v : Byte) : (s.setST v).I = s.I := rfl
@[simp] theorem State.setST_pc (v : Byte) : (s.setST v).pc = s.pc := rfl
@[simp] theorem State.setST_stack (v : Byte) : (s.setST v).stack = s.stack := rfl
@[simp] theorem State.setST_sp (v : Byte) : (s.setST v).sp = s.sp := rfl
@[simp] theorem State.setST_DT (v : Byte) : (s.setST v).DT = s.DT := rfl
@[simp] theorem State.setST_ST (v : Byte) : (s.setST v).ST = v := rfl
@[simp] theorem State.setST_mem (v : Byte) : (s.setST v).mem = s.mem := rfl
@[simp] theorem State.setST_display (v : Byte) : (s.setST v).display = s.display := rfl
@[simp] theorem State.setST_renderPending (v : Byte) : (s.setST v).renderPending = s.renderPending := rfl
@[simp] theorem State.setST_latch (v : Byte) : (s.setST v).latch = s.latch := rfl
@[simp] theorem State.setST_keys (v : Byte) : (s.setST v).keys = s.keys := rfl
@[simp] theorem State.setST_cosmacMode (v : Byte) : (s.setST v).cosmacMode = s.cosmacMode := rfl
@[simp] theorem State.setST_amigaMode (v : Byte) : (s.setST v).amigaMode = s.amigaMode := rfl
@[simp] theorem State.setST_fault (v : Byte) : (s.setST v).fault = s.fault := rfl
@[simp] theorem State.setST_started (v : Byte) : (s.setST v).started = s.started := rfl
@[simp] theorem State.setST_draws (v : Byte) : (s.setST v).draws = s.draws := rfl
@[simp] theorem State.setST_schedule (v : Byte) : (s.setST v).schedule = s.schedule := rfl
@[simp] theorem State.setST_reg (v : Byte) (r : Reg) : (s.setST v).reg r = s.reg r := rfl
@[simp] theorem State.setST_key (v : Byte) (j : Key) : (s.setST v).key j = s.key j := rfl
@[simp] theorem State.setST_readByte (v : Byte) (b' : Nat) : (s.setST v).readByte b' = s.readByte b' := rfl
@[simp] theorem State.setST_blockAddr (v : Byte) (i : Nat) : (s.setST v).blockAddr i = s.blockAddr i := rfl
@[simp] theorem State.setST_rand (v : Byte) : (s.setST v).rand = s.rand := rfl

/-! ### State.setDisplay -/

@[simp] theorem State.setDisplay_V (d : Display) : (s.setDisplay d).V = s.V := rfl
@[simp] theorem State.setDisplay_I (d : Display) : (s.setDisplay d).I = s.I := rfl
@[simp] theorem State.setDisplay_pc (d : Display) : (s.setDisplay d).pc = s.pc := rfl
@[simp] theorem State.setDisplay_stack (d : Display) : (s.setDisplay d).stack = s.stack := rfl
@[simp] theorem State.setDisplay_sp (d : Display) : (s.setDisplay d).sp = s.sp := rfl
@[simp] theorem State.setDisplay_DT (d : Display) : (s.setDisplay d).DT = s.DT := rfl
@[simp] theorem State.setDisplay_ST (d : Display) : (s.setDisplay d).ST = s.ST := rfl
@[simp] theorem State.setDisplay_mem (d : Display) : (s.setDisplay d).mem = s.mem := rfl
@[simp] theorem State.setDisplay_display (d : Display) : (s.setDisplay d).display = d := rfl
@[simp] theorem State.setDisplay_renderPending (d : Display) : (s.setDisplay d).renderPending = s.renderPending := rfl
@[simp] theorem State.setDisplay_latch (d : Display) : (s.setDisplay d).latch = s.latch := rfl
@[simp] theorem State.setDisplay_keys (d : Display) : (s.setDisplay d).keys = s.keys := rfl
@[simp] theorem State.setDisplay_cosmacMode (d : Display) : (s.setDisplay d).cosmacMode = s.cosmacMode := rfl
@[simp] theorem State.setDisplay_amigaMode (d : Display) : (s.setDisplay d).amigaMode = s.amigaMode := rfl
@[simp] theorem State.setDisplay_fault (d : Display) : (s.setDisplay d).fault = s.fault := rfl
@[simp] theorem State.setDisplay_started (d : Display) : (s.setDisplay d).started = s.started := rfl
@[simp] theorem State.setDisplay_draws (d : Display) : (s.setDisplay d).draws = s.draws := rfl
@[simp] theorem State.setDisplay_schedule (d : Display) : (s.setDisplay d).schedule = s.schedule := rfl
@[simp] theorem State.setDisplay_reg (d : Display) (r : Reg) : (s.setDisplay d).reg r = s.reg r := rfl
@[simp] theorem State.setDisplay_key (d : Display) (j : Key) : (s.setDisplay d).key j = s.key j := rfl
@[simp] theorem State.setDisplay_readByte (d : Display) (b' : Nat) : (s.setDisplay d).readByte b' = s.readByte b' := rfl
@[simp] theorem State.setDisplay_blockAddr (d : Display) (i : Nat) : (s.setDisplay d).blockAddr i = s.blockAddr i := rfl
@[simp] theorem State.setDisplay_rand (d : Display) : (s.setDisplay d).rand = s.rand := rfl

/-! ### State.setRender -/

@[simp] theorem State.setRender_V (b : Bool) : (s.setRender b).V = s.V := rfl
@[simp] theorem State.setRender_I (b : Bool) : (s.setRender b).I = s.I := rfl
@[simp] theorem State.setRender_pc (b : Bool) : (s.setRender b).pc = s.pc := rfl
@[simp] theorem State.setRender_stack (b : Bool) : (s.setRender b).stack = s.stack := rfl
@[simp] theorem State.setRender_sp (b : Bool) : (s.setRender b).sp = s.sp := rfl
@[simp] theorem State.setRender_DT (b : Bool) : (s.setRender b).DT = s.DT := rfl
@[simp] theorem State.setRender_ST (b : Bool) : (s.setRender b).ST = s.ST := rfl
@[simp] theorem State.setRender_mem (b : Bool) : (s.setRender b).mem = s.mem := rfl
@[simp] theorem State.setRender_display (b : Bool) : (s.setRender b).display = s.display := rfl
@[simp] theorem State.setRender_renderPending (b : Bool) : (s.setRender b).renderPending = b := rfl
@[simp] theorem State.setRender_latch (b : Bool) : (s.setRender b).latch = s.latch := rfl
@[simp] theorem State.setRender_keys (b : Bool) : (s.setRender b).keys = s.keys := rfl
@[simp] theorem State.setRender_cosmacMode (b : Bool) : (s.setRender b).cosmacMode = s.cosmacMode := rfl
@[simp] theorem State.setRender_amigaMode (b : Bool) : (s.setRender b).amigaMode = s.amigaMode := rfl
@[simp] theorem State.setRender_fault (b : Bool) : (s.setRender b).fault = s.fault := rfl
@[simp] theorem State.setRender_started (b : Bool) : (s.setRender b).started = s.started := rfl
@[simp] theorem State.setRender_draws (b : Bool) : (s.setRender b).draws = s.draws := rfl
@[simp] theorem State.setRender_schedule (b : Bool) : (s.setRender b).schedule = s.schedule := rfl
@[simp] theorem State.setRender_reg (b : Bool) (r : Reg) : (s.setRender b).reg r = s.reg r := rfl
@[simp] theorem State.setRender_key (b : Bool) (j : Key) : (s.setRender b).key j = s.key j := rfl
@[simp] theorem State.setRender_readByte (b : Bool) (b' : Nat) : (s.setRender b).readByte b' = s.readByte b' := rfl
@[simp] theorem State.setRender_blockAddr (b : Bool) (i : Nat) : (s.setRender b).blockAddr i = s.blockAddr i := rfl
@[simp] theorem State.setRender_rand (b : Bool) : (s.setRender b).rand = s.rand := rfl

/-! ### State.setLatch -/

@[simp] theorem State.setLatch_V (l : Option Key) : (s.setLatch l).V = s.V := rfl
@[simp] theorem State.setLatch_I (l : Option Key) : (s.setLatch l).I = s.I := rfl
@[simp] theorem State.setLatch_pc (l : Option Key) : (s.setLatch l).pc = s.pc := rfl
@[simp] theorem State.setLatch_stack (l : Option Key) : (s.setLatch l).stack = s.stack := rfl
@[simp] theorem State.setLatch_sp (l : Option Key) : (s.setLatch l).sp = s.sp := rfl
@[simp] theorem State.setLatch_DT (l : Option Key) : (s.setLatch l).DT = s.DT := rfl
@[simp] theorem State.setLatch_ST (l : Option Key) : (s.setLatch l).ST = s.ST := rfl
@[simp] theorem State.setLatch_mem (l : Option Key) : (s.setLatch l).mem = s.mem := rfl
@[simp] theorem State.setLatch_display (l : Option Key) : (s.setLatch l).display = s.display := rfl
@[simp] theorem State.setLatch_renderPending (l : Option Key) : (s.setLatch l).renderPending = s.renderPending := rfl
@[simp] theorem State.setLatch_latch (l : Option Key) : (s.setLatch l).latch = l := rfl
@[simp] theorem State.setLatch_keys (l : Option Key) : (s.setLatch l).keys = s.keys := rfl
@[simp] theorem State.setLatch_cosmacMode (l : Option Key) : (s.setLatch l).cosmacMode = s.cosmacMode := rfl
@[simp] theorem State.setLatch_amigaMode (l : Option Key) : (s.setLatch l).amigaMode = s.amigaMode := rfl
@[simp] theorem State.setLatch_fault (l : Option Key) : (s.setLatch l).fault = s.fault := rfl
@[simp] theorem State.setLatch_started (l : Option Key) : (s.setLatch l).started = s.started := rfl
@[simp] theorem State.setLatch_draws (l : Option Key) : (s.setLatch l).draws = s.draws := rfl
@[simp] theorem State.setLatch_schedule (l : Option Key) : (s.setLatch l).schedule = s.schedule := rfl
@[simp] theorem State.setLatch_reg (l : Option Key) (r : Reg) : (s.setLatch l).reg r = s.reg r := rfl
@[simp] theorem State.setLatch_key (l : Option Key) (j : Key) : (s.setLatch l).key j = s.key j := rfl
@[simp] theorem State.setLatch_readByte (l : Option Key) (b' : Nat) : (s.setLatch l).readByte b' = s.readByte b' := rfl
@[simp] theorem State.setLatch_blockAddr (l : Option Key) (i : Nat) : (s.setLatch l).blockAddr i = s.blockAddr i := rfl
@[simp] theorem State.setLatch_rand (l : Option Key) : (s.setLatch l).rand = s.rand := rfl

/-! ### State.setKey -/

@[simp] theorem State.setKey_V (k : Key) (p : Bool) : (s.setKey k p).V = s.V := rfl
@[simp] theorem State.setKey_I (k : Key) (p : Bool) : (s.setKey k p).I = s.I := rfl
@[simp] theorem State.setKey_pc (k : Key) (p : Bool) : (s.setKey k p).pc = s.pc := rfl
@[simp] theorem State.setKey_stack (k : Key) (p : Bool) : (s.setKey k p).stack = s.stack := rfl
@[simp] theorem State.setKey_sp (k : Key) (p : Bool) : (s.setKey k p).sp = s.sp := rfl
@[simp] theorem State.setKey_DT (k : Key) (p : Bool) : (s.setKey k p).DT = s.DT := rfl
@[simp] theorem State.setKey_ST (k : Key) (p : Bool) : (s.setKey k p).ST = s.ST := rfl
@[simp] theorem State.setKey_mem (k : Key) (p : Bool) : (s.setKey k p).mem = s.mem := rfl
@[simp] theorem State.setKey_display (k : Key) (p : Bool) : (s.setKey k p).display = s.display := rfl
@[simp] theorem State.setKey_renderPending (k : Key) (p : Bool) : (s.setKey k p).renderPending = s.renderPending := rfl
@[simp] theorem State.setKey_latch (k : Key) (p : Bool) : (s.setKey k p).latch = s.latch := rfl
@[simp] theorem State.setKey_keys (k : Key) (p : Bool) : (s.setKey k p).keys = s.keys.set k p := rfl
@[simp] theorem State.setKey_cosmacMode (k : Key) (p : Bool) : (s.setKey k p).cosmacMode = s.cosmacMode := rfl
@[simp] theorem State.setKey_amigaMode (k : Key) (p : Bool) : (s.setKey k p).amigaMode = s.amigaMode := rfl
@[simp] theorem State.setKey_fault (k : Key) (p : Bool) : (s.setKey k p).fault = s.fault := rfl
@[simp] theorem State.setKey_started (k : Key) (p : Bool) : (s.setKey k p).started = s.started := rfl
@[simp] theorem State.setKey_draws (k : Key) (p : Bool) : (s.setKey k p).draws = s.draws := rfl
@[simp] theorem State.setKey_schedule (k : Key) (p : Bool) : (s.setKey k p).schedule = s.schedule := rfl
@[simp] theorem State.setKey_reg (k : Key) (p : Bool) (r : Reg) : (s.setKey k p).reg r = s.reg r := rfl
@[simp] theorem State.setKey_readByte (k : Key) (p : Bool) (b' : Nat) : (s.setKey k p).readByte b' = s.readByte b' := rfl
@[simp] theorem State.setKey_blockAddr (k : Key) (p : Bool) (i : Nat) : (s.setKey k p).blockAddr i = s.blockAddr i := rfl
@[simp] theorem State.setKey_rand (k : Key) (p : Bool) : (s.setKey k p).rand = s.rand := rfl

/-! ### State.setFault -/

@[simp] theorem State.setFault_V (c : Option FaultCause) : (s.setFault c).V = s.V := rfl
@[simp] theorem State.setFault_I (c : Option FaultCause) : (s.setFault c).I = s.I := rfl
@[simp] theorem State.setFault_pc (c : Option FaultCause) : (s.setFault c).pc = s.pc := rfl
@[simp] theorem State.setFault_stack (c : Option FaultCause) : (s.setFault c).stack = s.stack := rfl
@[simp] theorem State.setFault_sp (c : Option FaultCause) : (s.setFault c).sp = s.sp := rfl
@[simp] theorem State.setFault_DT (c : Option FaultCause) : (s.setFault c).DT = s.DT := rfl
@[simp] theorem State.setFault_ST (c : Option FaultCause) : (s.setFault c).ST = s.ST := rfl
@[simp] theorem State.setFault_mem (c : Option FaultCause) : (s.setFault c).mem = s.mem := rfl
@[simp] theorem State.setFault_display (c : Option FaultCause) : (s.setFault c).display = s.display := rfl
@[simp] theorem State.setFault_renderPending (c : Option FaultCause) : (s.setFault c).renderPending = s.renderPending := rfl
@[simp] theorem State.setFault_latch (c : Option FaultCause) : (s.setFault c).latch = s.latch := rfl
@[simp] theorem State.setFault_keys (c : Option FaultCause) : (s.setFault c).keys = s.keys := rfl
@[simp] theorem State.setFault_cosmacMode (c : Option FaultCause) : (s.setFault c).cosmacMode = s.cosmacMode := rfl
@[simp] theorem State.setFault_amigaMode (c : Option FaultCause) : (s.setFault c).amigaMode = s.amigaMode := rfl
@[simp] theorem State.setFault_fault (c : Option FaultCause) : (s.setFault c).fault = c := rfl
@[simp] theorem State.setFault_started (c : Option FaultCause) : (s.setFault c).started = s.started := rfl
@[simp] theorem State.setFault_draws (c : Option FaultCause) : (s.setFault c).draws = s.draws := rfl
@[simp] theorem State.setFault_schedule (c : Option FaultCause) : (s.setFault c).schedule = s.schedule := rfl
@[simp] theorem State.setFault_reg (c : Option FaultCause) (r : Reg) : (s.setFault c).reg r = s.reg r := rfl
@[simp] theorem State.setFault_key (c : Option FaultCause) (j : Key) : (s.setFault c).key j = s.key j := rfl
@[simp] theorem State.setFault_readByte (c : Option FaultCause) (b' : Nat) : (s.setFault c).readByte b' = s.readByte b' := rfl
@[simp] theorem State.setFault_blockAddr (c : Option FaultCause) (i : Nat) : (s.setFault c).blockAddr i = s.blockAddr i := rfl
@[simp] theorem State.setFault_rand (c : Option FaultCause) : (s.setFault c).rand = s.rand := rfl

/-! ### State.setStarted -/

@[simp] theorem State.setStarted_V (b : Bool) : (s.setStarted b).V = s.V := rfl
@[simp] theorem State.setStarted_I (b : Bool) : (s.setStarted b).I = s.I := rfl
@[simp] theorem State.setStarted_pc (b : Bool) : (s.setStarted b).pc = s.pc := rfl
@[simp] theorem State.setStarted_stack (b : Bool) : (s.setStarted b).stack = s.stack := rfl
@[simp] theorem State.setStarted_sp (b : Bool) : (s.setStarted b).sp = s.sp := rfl
@[simp] theorem State.setStarted_DT (b : Bool) : (s.setStarted b).DT = s.DT := rfl
@[simp] theorem State.setStarted_ST (b : Bool) : (s.setStarted b).ST = s.ST := rfl
@[simp] theorem State.setStarted_mem (b : Bool) : (s.setStarted b).mem = s.mem := rfl
@[simp] theorem State.setStarted_display (b : Bool) : (s.setStarted b).display = s.display := rfl
@[simp] theorem State.setStarted_renderPending (b : Bool) : (s.setStarted b).renderPending = s.renderPending := rfl
@[simp] theorem State.setStarted_latch (b : Bool) : (s.setStarted b).latch = s.latch := rfl
@[simp] theorem State.setStarted_keys (b : Bool) : (s.setStarted b).keys = s.keys := rfl
@[simp] theorem State.setStarted_cosmacMode (b : Bool) : (s.setStarted b).cosmacMode = s.cosmacMode := rfl
@[simp] theorem State.setStarted_amigaMode (b : Bool) : (s.setStarted b).amigaMode = s.amigaMode := rfl
@[simp] theorem State.setStarted_fault (b : Bool) : (s.setStarted b).fault = s.fault := rfl
@[simp] theorem State.setStarted_started (b : Bool) : (s.setStarted b).started = b := rfl
@[simp] theorem State.setStarted_draws (b : Bool) : (s.setStarted b).draws = s.draws := rfl
@[simp] theorem State.setStarted_schedule (b : Bool) : (s.setStarted b).schedule = s.schedule := rfl
@[simp] theorem State.setStarted_reg (b : Bool) (r : Reg) : (s.setStarted b).reg r = s.reg r := rfl
@[simp] theorem State.setStarted_key (b : Bool) (j : Key) : (s.setStarted b).key j = s.key j := rfl
@[simp] theorem State.setStarted_readByte (b : Bool) (b' : Nat) : (s.setStarted b).readByte b' = s.readByte b' := rfl
@[simp] theorem State.setStarted_blockAddr (b : Bool) (i : Nat) : (s.setStarted b).blockAddr i = s.blockAddr i := rfl
@[simp] theorem State.setStarted_rand (b : Bool) : (s.setStarted b).rand = s.rand := rfl

/-! ### State.setDraws -/

@[simp] theorem State.setDraws_V (n : Nat) : (s.setDraws n).V = s.V := rfl
@[simp] theorem State.setDraws_I (n : Nat) : (s.setDraws n).I = s.I := rfl
@[simp] theorem State.setDraws_pc (n : Nat) : (s.setDraws n).pc = s.pc := rfl
@[simp] theorem State.setDraws_stack (n : Nat) : (s.setDraws n).stack = s.stack := rfl
@[simp] theorem State.setDraws_sp (n : Nat) : (s.setDraws n).sp = s.sp := rfl
@[simp] theorem State.setDraws_DT (n : Nat) : (s.setDraws n).DT = s.DT := rfl
@[simp] theorem State.setDraws_ST (n : Nat) : (s.setDraws n).ST = s.ST := rfl
@[simp] theorem State.setDraws_mem (n : Nat) : (s.setDraws n).mem = s.mem := rfl
@[simp] theorem State.setDraws_display (n : Nat) : (s.setDraws n).display = s.display := rfl
@[simp] theorem State.setDraws_renderPending (n : Nat) : (s.setDraws n).renderPending = s.renderPending := rfl
@[simp] theorem State.setDraws_latch (n : Nat) : (s.setDraws n).latch = s.latch := rfl
@[simp] theorem State.setDraws_keys (n : Nat) : (s.setDraws n).keys = s.keys := rfl
@[simp] theorem State.setDraws_cosmacMode (n : Nat) : (s.setDraws n).cosmacMode = s.cosmacMode := rfl
@[simp] theorem State.setDraws_amigaMode (n : Nat) : (s.setDraws n).amigaMode = s.amigaMode := rfl
@[simp] theorem State.setDraws_fault (n : Nat) : (s.setDraws n).fault = s.fault := rfl
@[simp] theorem State.setDraws_started (n : Nat) : (s.setDraws n).started = s.started := rfl
@[simp] theorem State.setDraws_draws (n : Nat) : (s.setDraws n).draws = n := rfl
@[simp] theorem State.setDraws_schedule (n : Nat) : (s.setDraws n).schedule = s.schedule := rfl
@[simp] theorem State.setDraws_reg (n : Nat) (r : Reg) : (s.setDraws n).reg r = s.reg r := rfl
@[simp] theorem State.setDraws_key (n : Nat) (j : Key) : (s.setDraws n).key j = s.key j := rfl
@[simp] theorem State.setDraws_readByte (n : Nat) (b' : Nat) : (s.setDraws n).readByte b' = s.readByte b' := rfl
@[simp] theorem State.setDraws_blockAddr (n : Nat) (i : Nat) : (s.setDraws n).blockAddr i = s.blockAddr i := rfl

/-! ### State.setSchedule -/

@[simp] theorem State.setSchedule_V (es : List Event) : (s.setSchedule es).V = s.V := rfl
@[simp] theorem State.setSchedule_I (es : List Event) : (s.setSchedule es).I = s.I := rfl
@[simp] theorem State.setSchedule_pc (es : List Event) : (s.setSchedule es).pc = s.pc := rfl
@[simp] theorem State.setSchedule_stack (es : List Event) : (s.setSchedule es).stack = s.stack := rfl
@[simp] theorem State.setSchedule_sp (es : List Event) : (s.setSchedule es).sp = s.sp := rfl
@[simp] theorem State.setSchedule_DT (es : List Event) : (s.setSchedule es).DT = s.DT := rfl
@[simp] theorem State.setSchedule_ST (es : List Event) : (s.setSchedule es).ST = s.ST := rfl
@[simp] theorem State.setSchedule_mem (es : List Event) : (s.setSchedule es).mem = s.mem := rfl
@[simp] theorem State.setSchedule_display (es : List Event) : (s.setSchedule es).display = s.display := rfl
@[simp] theorem State.setSchedule_renderPending (es : List Event) : (s.setSchedule es).renderPending = s.renderPending := rfl
@[simp] theorem State.setSchedule_latch (es : List Event) : (s.setSchedule es).latch = s.latch := rfl
@[simp] theorem State.setSchedule_keys (es : List Event) : (s.setSchedule es).keys = s.keys := rfl
@[simp] theorem State.setSchedule_cosmacMode (es : List Event) : (s.setSchedule es).cosmacMode = s.cosmacMode := rfl
@[simp] theorem State.setSchedule_amigaMode (es : List Event) : (s.setSchedule es).amigaMode = s.amigaMode := rfl
@[simp] theorem State.setSchedule_fault (es : List Event) : (s.setSchedule es).fault = s.fault := rfl
@[simp] theorem State.setSchedule_started (es : List Event) : (s.setSchedule es).started = s.started := rfl
@[simp] theorem State.setSchedule_draws (es : List Event) : (s.setSchedule es).draws = s.draws := rfl
@[simp] theorem State.setSchedule_schedule (es : List Event) : (s.setSchedule es).schedule = es := rfl
@[simp] theorem State.setSchedule_reg (es : List Event) (r : Reg) : (s.setSchedule es).reg r = s.reg r := rfl
@[simp] theorem State.setSchedule_key (es : List Event) (j : Key) : (s.setSchedule es).key j = s.key j := rfl
@[simp] theorem State.setSchedule_readByte (es : List Event) (b' : Nat) : (s.setSchedule es).readByte b' = s.readByte b' := rfl
@[simp] theorem State.setSchedule_blockAddr (es : List Event) (i : Nat) : (s.setSchedule es).blockAddr i = s.blockAddr i := rfl
@[simp] theorem State.setSchedule_rand (es : List Event) : (s.setSchedule es).rand = s.rand := rfl

/-! ### State.setStack -/

@[simp] theorem State.setStack_V (st : Vector Word Config.stackDepth) (p : Fin (Config.stackDepth + 1)) : (s.setStack st p).V = s.V := rfl
@[simp] theorem State.setStack_I (st : Vector Word Config.stackDepth) (p : Fin (Config.stackDepth + 1)) : (s.setStack st p).I = s.I := rfl
@[simp] theorem State.setStack_pc (st : Vector Word Config.stackDepth) (p : Fin (Config.stackDepth + 1)) : (s.setStack st p).pc = s.pc := rfl
@[simp] theorem State.setStack_stack (st : Vector Word Config.stackDepth) (p : Fin (Config.stackDepth + 1)) : (s.setStack st p).stack = st := rfl
@[simp] theorem State.setStack_sp (st : Vector Word Config.stackDepth) (p : Fin (Config.stackDepth + 1)) : (s.setStack st p).sp = p := rfl
@[simp] theorem State.setStack_DT (st : Vector Word Config.stackDepth) (p : Fin (Config.stackDepth + 1)) : (s.setStack st p).DT = s.DT := rfl
@[simp] theorem State.setStack_ST (st : Vector Word Config.stackDepth) (p : Fin (Config.stackDepth + 1)) : (s.setStack st p).ST = s.ST := rfl
@[simp] theorem State.setStack_mem (st : Vector Word Config.stackDepth) (p : Fin (Config.stackDepth + 1)) : (s.setStack st p).mem = s.mem := rfl
@[simp] theorem State.setStack_display (st : Vector Word Config.stackDepth) (p : Fin (Config.stackDepth + 1)) : (s.setStack st p).display = s.display := rfl
@[simp] theorem State.setStack_renderPending (st : Vector Word Config.stackDepth) (p : Fin (Config.stackDepth + 1)) : (s.setStack st p).renderPending = s.renderPending := rfl
@[simp] theorem State.setStack_latch (st : Vector Word Config.stackDepth) (p : Fin (Config.stackDepth + 1)) : (s.setStack st p).latch = s.latch := rfl
@[simp] theorem State.setStack_keys (st : Vector Word Config.stackDepth) (p : Fin (Config.stackDepth + 1)) : (s.setStack st p).keys = s.keys := rfl
@[simp] theorem State.setStack_cosmacMode (st : Vector Word Config.stackDepth) (p : Fin (Config.stackDepth + 1)) : (s.setStack st p).cosmacMode = s.cosmacMode := rfl
@[simp] theorem State.setStack_amigaMode (st : Vector Word Config.stackDepth) (p : Fin (Config.stackDepth + 1)) : (s.setStack st p).amigaMode = s.amigaMode := rfl
@[simp] theorem State.setStack_fault (st : Vector Word Config.stackDepth) (p : Fin (Config.stackDepth + 1)) : (s.setStack st p).fault = s.fault := rfl
@[simp] theorem State.setStack_started (st : Vector Word Config.stackDepth) (p : Fin (Config.stackDepth + 1)) : (s.setStack st p).started = s.started := rfl
@[simp] theorem State.setStack_draws (st : Vector Word Config.stackDepth) (p : Fin (Config.stackDepth + 1)) : (s.setStack st p).draws = s.draws := rfl
@[simp] theorem State.setStack_schedule (st : Vector Word Config.stackDepth) (p : Fin (Config.stackDepth + 1)) : (s.setStack st p).schedule = s.schedule := rfl
@[simp] theorem State.setStack_reg (st : Vector Word Config.stackDepth) (p : Fin (Config.stackDepth + 1)) (r : Reg) : (s.setStack st p).reg r = s.reg r := rfl
@[simp] theorem State.setStack_key (st : Vector Word Config.stackDepth) (p : Fin (Config.stackDepth + 1)) (j : Key) : (s.setStack st p).key j = s.key j := rfl
@[simp] theorem State.setStack_readByte (st : Vector Word Config.stackDepth) (p : Fin (Config.stackDepth + 1)) (b' : Nat) : (s.setStack st p).readByte b' = s.readByte b' := rfl
@[simp] theorem State.setStack_blockAddr (st : Vector Word Config.stackDepth) (p : Fin (Config.stackDepth + 1)) (i : Nat) : (s.setStack st p).blockAddr i = s.blockAddr i := rfl
@[simp] theorem State.setStack_rand (st : Vector Word Config.stackDepth) (p : Fin (Config.stackDepth + 1)) : (s.setStack st p).rand = s.rand := rfl

/-! ### State.writeByte -/

@[simp] theorem State.writeByte_V (a : Nat) (v : Byte) : (s.writeByte a v).V = s.V := rfl
@[simp] theorem State.writeByte_I (a : Nat) (v : Byte) : (s.writeByte a v).I = s.I := rfl
@[simp] theorem State.writeByte_pc (a : Nat) (v : Byte) : (s.writeByte a v).pc = s.pc := rfl
@[simp] theorem State.writeByte_stack (a : Nat) (v : Byte) : (s.writeByte a v).stack = s.stack := rfl
@[simp] theorem State.writeByte_sp (a : Nat) (v : Byte) : (s.writeByte a v).sp = s.sp := rfl
@[simp] theorem State.writeByte_DT (a : Nat) (v : Byte) : (s.writeByte a v).DT = s.DT := rfl
@[simp] theorem State.writeByte_ST (a : Nat) (v : Byte) : (s.writeByte a v).ST = s.ST := rfl
@[simp] theorem State.writeByte_mem (a : Nat) (v : Byte) : (s.writeByte a v).mem = Memory.write s.mem (trunc12 a) v := rfl
@[simp] theorem State.writeByte_display (a : Nat) (v : Byte) : (s.writeByte a v).display = s.display := rfl
@[simp] theorem State.writeByte_renderPending (a : Nat) (v : Byte) : (s.writeByte a v).renderPending = s.renderPending := rfl
@[simp] theorem State.writeByte_latch (a : Nat) (v : Byte) : (s.writeByte a v).latch = s.latch := rfl
@[simp] theorem State.writeByte_keys (a : Nat) (v : Byte) : (s.writeByte a v).keys = s.keys := rfl
@[simp] theorem State.writeByte_cosmacMode (a : Nat) (v : Byte) : (s.writeByte a v).cosmacMode = s.cosmacMode := rfl
@[simp] theorem State.writeByte_amigaMode (a : Nat) (v : Byte) : (s.writeByte a v).amigaMode = s.amigaMode := rfl
@[simp] theorem State.writeByte_fault (a : Nat) (v : Byte) : (s.writeByte a v).fault = s.fault := rfl
@[simp] theorem State.writeByte_started (a : Nat) (v : Byte) : (s.writeByte a v).started = s.started := rfl
@[simp] theorem State.writeByte_draws (a : Nat) (v : Byte) : (s.writeByte a v).draws = s.draws := rfl
@[simp] theorem State.writeByte_schedule (a : Nat) (v : Byte) : (s.writeByte a v).schedule = s.schedule := rfl
@[simp] theorem State.writeByte_reg (a : Nat) (v : Byte) (r : Reg) : (s.writeByte a v).reg r = s.reg r := rfl
@[simp] theorem State.writeByte_key (a : Nat) (v : Byte) (j : Key) : (s.writeByte a v).key j = s.key j := rfl
@[simp] theorem State.writeByte_blockAddr (a : Nat) (v : Byte) (i : Nat) : (s.writeByte a v).blockAddr i = s.blockAddr i := rfl
@[simp] theorem State.writeByte_rand (a : Nat) (v : Byte) : (s.writeByte a v).rand = s.rand := rfl

/-! ### The accessors over the updates of their own field -/

@[simp] theorem State.setReg_reg (x : Reg) (v : Byte) (r : Reg) :
    (s.setReg x v).reg r = if r = x then v else s.reg r := by
  simp only [State.reg, State.setReg, Fin.getElem_fin, Vector.getElem_set, Fin.val_inj, eq_comm]

@[simp] theorem State.setRegs_reg (vs : Vector Byte 16) (r : Reg) : (s.setRegs vs).reg r = vs[r] := rfl

@[simp] theorem State.setKey_key (k : Key) (p : Bool) (j : Key) :
    (s.setKey k p).key j = if j = k then p else s.key j := by
  simp only [State.key, State.setKey, Fin.getElem_fin, Vector.getElem_set, Fin.val_inj, eq_comm]

@[simp] theorem State.setI_blockAddr (v : Word) (i : Nat) : (s.setI v).blockAddr i = v.toNat + i := rfl

@[simp] theorem State.setDraws_rand (n : Nat) : (s.setDraws n).rand = Config.randByte n := rfl

/-- The registers are the register file: two states with the same registers have the same `V`. -/
theorem State.V_ext {s t : State} (h : ∀ r, t.reg r = s.reg r) : t.V = s.V :=
  Vector.ext fun i hi => h ⟨i, hi⟩

/-- Writing a register its own value changes nothing. -/
@[simp] theorem State.setReg_self (x : Reg) : s.setReg x (s.reg x) = s := by
  simp [State.setReg, State.reg]

/-- Two writes to one register: the last stays. -/
@[simp] theorem State.setReg_setReg (x : Reg) (v w : Byte) : (s.setReg x v).setReg x w = s.setReg x w := by
  simp [State.setReg]

end Sys2Proof.Machine
end

