-- ==== Sys2Proof/Laws/Memory.lean ====
section
/-! SUPPORT. The laws of the canonical memory: every operation keeps the form, a read after a write, and what a block of
single-byte writes leaves. -/

namespace Sys2Proof.Machine

theorem Memory.wf_nil : Memory.wf [] := ⟨.nil, by simp⟩

/-- The tail of a canonical memory is canonical. -/
theorem Memory.wf_tail {c : Host.Cell} {m : Memory} (h : Memory.wf (c :: m)) : Memory.wf m :=
  ⟨(List.pairwise_cons.1 h.1).2, fun d hd => h.2 d (List.mem_cons_of_mem _ hd)⟩

/-- Below its first address a canonical memory lists nothing. -/
theorem Memory.read_below {m : Memory} {a : Nat} (h : ∀ c ∈ m, a < c.1) : Memory.read m a = Memory.unlisted := by
  induction m with
  | nil => rfl
  | cons c m ih =>
    have hc : c.1 ≠ a := (h c List.mem_cons_self).ne'
    simp only [Memory.read, hc, if_false]
    exact ih fun d hd => h d (List.mem_cons_of_mem _ hd)

/-- The addresses a write leaves listed are old ones or the address written. -/
theorem Memory.write_mem {m : Memory} {a : Nat} {v : Byte} {c : Host.Cell} (hc : c ∈ Memory.write m a v) :
    c ∈ m ∨ (c = (a, v) ∧ v ≠ Memory.unlisted) := by
  induction m with
  | nil => unfold Memory.write Memory.consCell at hc; split at hc <;> simp_all
  | cons d m ih =>
    unfold Memory.write Memory.consCell at hc
    split_ifs at hc with h1 h2 h3
    · exact .inl hc
    · rcases List.mem_cons.1 hc with rfl | h
      · exact .inr ⟨rfl, h2⟩
      · exact .inl h
    · exact .inl (List.mem_cons_of_mem _ hc)
    · rcases List.mem_cons.1 hc with rfl | h
      · exact .inr ⟨rfl, by assumption⟩
      · exact .inl (List.mem_cons_of_mem _ h)
    · rcases List.mem_cons.1 hc with rfl | h
      · exact .inl List.mem_cons_self
      · exact (ih h).imp_left (List.mem_cons_of_mem _)

/-- A write keeps the canonical form. -/
theorem Memory.write_wf {m : Memory} (h : Memory.wf m) {a : Nat} (ha : a < Config.memSize) (v : Byte) :
    Memory.wf (Memory.write m a v) := by
  refine ⟨?_, fun c hc => ?_⟩
  · induction m with
    | nil => unfold Memory.write Memory.consCell; split; exacts [.nil, List.pairwise_singleton _ _]
    | cons d m ih =>
      have hd := List.pairwise_cons.1 h.1
      have ht := Memory.wf_tail h
      unfold Memory.write Memory.consCell
      split_ifs with h1 h2 h3 h4
      · exact h.1
      · refine List.pairwise_cons.2 ⟨fun c hc => ?_, h.1⟩
        rcases List.mem_cons.1 hc with rfl | hc
        · exact h1
        · exact h1.trans (hd.1 c hc)
      · exact hd.2
      · exact List.pairwise_cons.2 ⟨fun c hc => by subst h3; exact hd.1 c hc, hd.2⟩
      · refine List.pairwise_cons.2 ⟨fun c hc => ?_, ih ht⟩
        rcases Memory.write_mem hc with hc | ⟨rfl, -⟩
        · exact hd.1 c hc
        · exact lt_of_le_of_ne (not_lt.1 h1) (Ne.symm h3)
  · rcases Memory.write_mem hc with hc | ⟨rfl, hv⟩
    · exact h.2 c hc
    · exact ⟨ha, hv⟩

/-- A read after a write: the value written there, the old byte elsewhere. -/
theorem Memory.read_write {m : Memory} (h : Memory.wf m) (a b : Nat) (v : Byte) :
    Memory.read (Memory.write m a v) b = if a = b then v else Memory.read m b := by
  induction m with
  | nil =>
    unfold Memory.write Memory.consCell
    split_ifs <;> simp_all [Memory.read]
  | cons d m ih =>
    have hd := List.pairwise_cons.1 h.1
    have below : ∀ {c : Nat}, c ≤ d.1 → Memory.read m c = Memory.unlisted := fun hc =>
      Memory.read_below fun e he => hc.trans_lt (hd.1 e he)
    rcases lt_trichotomy a d.1 with hlt | heq | hgt
    · have hd' : ∀ b, Memory.read (d :: m) b = if d.1 = b then d.2 else Memory.read m b := fun _ => rfl
      simp only [Memory.write, Memory.consCell, if_pos hlt]
      split_ifs with hv hab hab
      · subst hab; rw [hd', if_neg hlt.ne', below hlt.le, hv]
      · rfl
      · simp [Memory.read, hab]
      · simp [Memory.read, hab]
    · subst heq
      simp only [Memory.write, Memory.consCell, lt_irrefl, if_false, if_true]
      split_ifs with hv hab hab
      · rw [← hab, below le_rfl, hv]
      · simp [Memory.read, hab]
      · simp [Memory.read, hab]
      · simp [Memory.read, hab]
    · simp only [Memory.write, if_neg hgt.not_gt, if_neg hgt.ne', Memory.read]
      split_ifs with hdb hab hab
      · omega
      · rfl
      · rw [ih (Memory.wf_tail h), if_pos hab]
      · rw [ih (Memory.wf_tail h), if_neg hab]

theorem trunc12_lt (a : Nat) : trunc12 a < Config.memSize := Nat.mod_lt _ (by decide)

@[simp] theorem trunc12_trunc12 (a : Nat) : trunc12 (trunc12 a) = trunc12 a := Nat.mod_mod _ _

theorem trunc12_of_lt {a : Nat} (h : a < Config.memSize) : trunc12 a = a := Nat.mod_eq_of_lt h

theorem State.writeByte_wf {s : State} (h : Memory.wf s.mem) (a : Nat) (v : Byte) : Memory.wf (s.writeByte a v).mem :=
  Memory.write_wf h (trunc12_lt a) v

/-- A read after a MemWrite (R43, R48). -/
theorem State.writeByte_readByte {s : State} (h : Memory.wf s.mem) (a b : Nat) (v : Byte) :
    (s.writeByte a v).readByte b = if trunc12 a = trunc12 b then v else s.readByte b :=
  Memory.read_write h _ _ v

/-- A block of writes is a change of memory alone. -/
theorem State.storeBytes_eq (s : State) (a : Nat) (bs : List Byte) :
    s.storeBytes a bs = { s with mem := (s.storeBytes a bs).mem } := by
  induction bs generalizing s a with
  | nil => rfl
  | cons b bs ih => rw [State.storeBytes, ih]; rfl

theorem State.storeBytes_wf {s : State} (h : Memory.wf s.mem) (a : Nat) (bs : List Byte) :
    Memory.wf (s.storeBytes a bs).mem := by
  induction bs generalizing s a with
  | nil => exact h
  | cons b bs ih => exact ih (State.writeByte_wf h a b) (a + 1)

/-- Outside the block a block of writes changes nothing. -/
theorem State.storeBytes_readByte_outside {s : State} (h : Memory.wf s.mem) (a : Nat) (bs : List Byte) (c : Nat)
    (hc : ∀ k < bs.length, trunc12 c ≠ trunc12 (a + k)) : (s.storeBytes a bs).readByte c = s.readByte c := by
  induction bs generalizing s a with
  | nil => rfl
  | cons b bs ih =>
    have h0 := hc 0 (by simp)
    rw [State.storeBytes, ih (State.writeByte_wf h a b) (a + 1), State.writeByte_readByte h,
      if_neg (by simpa using h0.symm)]
    intro k hk
    have := hc (k + 1) (by simpa using hk)
    rwa [show a + 1 + k = a + (k + 1) by omega]

/-- Inside the block a block of at most 4096 writes leaves the byte written at that place. -/
theorem State.storeBytes_readByte {s : State} (h : Memory.wf s.mem) (a : Nat) (bs : List Byte)
    (hl : bs.length ≤ Config.memSize) (k : Nat) (hk : k < bs.length) : (s.storeBytes a bs).readByte (a + k) = bs[k] := by
  induction bs generalizing s a k with
  | nil => simp at hk
  | cons b bs ih =>
    rw [State.storeBytes]
    cases k with
    | zero =>
      rw [State.storeBytes_readByte_outside (State.writeByte_wf h a b), State.writeByte_readByte h, if_pos (by simp)]
      · rfl
      · intro j hj
        simp only [List.length_cons, Config.memSize, trunc12] at *
        omega
    | succ k =>
      rw [show a + (k + 1) = a + 1 + k by omega]
      exact ih (State.writeByte_wf h a b) (a + 1) (by simp only [List.length_cons] at hl; omega) k (by simpa using hk)

end Sys2Proof.Machine
end

