-- ==== Sys2Proof/Laws/Ops.lean ====
section
/-! SUPPORT. What each shared operation over registers, `pc`, the stack and the fault register can do, said once; later
proofs cite these lemmas and do not unfold the operations. -/

namespace Sys2Proof.Machine

variable (s : State)

/-! ### The program counter -/

theorem State.skip_eq : s.skip = s.setPc (s.pc + 2) := rfl

theorem State.respin_eq : s.respin = s.setPc (s.pc - 2) := rfl

/-- A conditional skip is a change of `pc` alone. -/
theorem State.skipIf_eq (c : Bool) : s.skipIf c = s.setPc (if c then s.pc + 2 else s.pc) := by
  cases c <;> rfl

@[simp] theorem State.skipIf_true : s.skipIf true = s.skip := rfl

@[simp] theorem State.skipIf_false : s.skipIf false = s := rfl

theorem State.advance_eq : s.advance = (s.setPc (s.pc + 2)).setStarted true := rfl

/-! ### Results and flags -/

/-- The flag is written last: `VF` holds it, every other register is as after the result (R113). -/
@[simp] theorem State.setResultFlag_reg (x : Reg) (r f : Byte) (q : Reg) :
    (s.setResultFlag x r f).reg q = if q = VF then f else if q = x then r else s.reg q := by
  simp [State.setResultFlag]

/-- A result and a flag are a change of the registers alone. -/
theorem State.setResultFlag_eq (x : Reg) (r f : Byte) :
    s.setResultFlag x r f = s.setRegs (s.setResultFlag x r f).V := rfl

/-- What the logic instructions leave in each register (R103, R104, R105). -/
@[simp] theorem State.setLogic_reg (x : Reg) (r : Byte) (q : Reg) :
    (s.setLogic x r).reg q = if q = VF ∧ s.cosmacMode then 0 else if q = x then r else s.reg q := by
  unfold State.setLogic
  split <;> simp [*]

/-- A logic result is a change of the registers alone. -/
theorem State.setLogic_eq (x : Reg) (r : Byte) : s.setLogic x r = s.setRegs (s.setLogic x r).V := by
  unfold State.setLogic
  split <;> rfl

theorem flagByte_eq_one (b : Bool) : flagByte b = 1 ↔ b = true := by cases b <;> decide

theorem flagByte_eq_zero (b : Bool) : flagByte b = 0 ↔ b = false := by cases b <;> decide

/-! ### The call stack (R14) -/

/-- A push succeeds below 16 entries: the value at `stack[sp]`, then `sp + 1`. -/
theorem State.push_of_lt (v : Word) (h : s.sp.val < 16) :
    s.push v = some (s.setStack (s.stack.set s.sp.val v h) ⟨s.sp.val + 1, Nat.succ_lt_succ h⟩) := dif_pos h

/-- A push fails exactly with 16 entries. -/
theorem State.push_eq_none (v : Word) : s.push v = none ↔ s.sp.val = 16 := by
  have hlt : s.sp.val < 17 := s.sp.isLt
  by_cases h : s.sp.val < 16
  · simp only [s.push_of_lt v h, reduceCtorEq, false_iff]; omega
  · simp only [State.push, dif_neg h, true_iff]; omega

/-- Everything a push that succeeds can do. -/
theorem State.push_some {v : Word} {t : State} (h : s.push v = some t) :
    ∃ lt : s.sp.val < 16, t = s.setStack (s.stack.set s.sp.val v lt) ⟨s.sp.val + 1, Nat.succ_lt_succ lt⟩ := by
  by_cases lt : s.sp.val < 16
  · rw [s.push_of_lt v lt] at h
    exact ⟨lt, (Option.some.inj h).symm⟩
  · rw [(s.push_eq_none v).2 (by have : s.sp.val < 17 := s.sp.isLt; omega)] at h
    cases h

/-- A pop fails exactly with an empty stack. -/
theorem State.pop_eq_none : s.pop = none ↔ s.sp.val = 0 := by
  unfold State.pop
  split
  · next h => simp only [reduceCtorEq, false_iff]; omega
  · next h => simp only [true_iff]; omega

/-- Everything a pop that succeeds can do: the top entry, then `sp - 1`; the entries stay (R14). -/
theorem State.pop_some {w : Word} {t : State} (h : s.pop = some (w, t)) :
    ∃ (_ : 0 < s.sp.val) (lt : s.sp.val - 1 < 16),
      w = s.stack[s.sp.val - 1] ∧ t = s.setStack s.stack ⟨s.sp.val - 1, Nat.lt_succ_of_lt lt⟩ := by
  unfold State.pop at h
  split at h
  · next pos =>
    have e := Option.some.inj h
    have hlt : s.sp.val < 17 := s.sp.isLt
    exact ⟨pos, by omega, (congrArg Prod.fst e).symm, (congrArg Prod.snd e).symm⟩
  · cases h

/-- A pop succeeds on a stack that is not empty. -/
theorem State.pop_of_pos (h : 0 < s.sp.val) : ∃ w t, s.pop = some (w, t) := by
  cases hp : s.pop with
  | none => exact absurd ((s.pop_eq_none).1 hp) (by omega)
  | some p => exact ⟨p.1, p.2, rfl⟩

/-! ### Faults and RESET -/

/-- A fault raised after the fetch leaves everything but `fault` as before the STEP: the advance of `pc` is undone
(R155). `started` is the model's own. -/
theorem State.advance_raise (c : FaultCause) : s.advance.raise c = (s.setFault (some c)).setStarted true := by
  simp [State.raise, State.advance, State.setPc, State.setStarted, State.setFault]

/-- RESET leaves nothing of the core's state (R180); the schedule and the count of draws are the model's own. -/
theorem State.resetEvent_eq (c a : Bool) :
    s.resetEvent c a = { State.resetWith c a with draws := s.draws, schedule := s.schedule } := rfl

/-! ### The display -/

/-- A toggle inverts its pixel and no other. -/
theorem Display.get_toggle (d : Display) (y y' : Fin 32) (x x' : Fin 64) :
    (d.toggle y x).get y' x' = if y' = y ∧ x' = x then !d.get y x else d.get y' x' := by
  simp only [Display.toggle, Display.get, Fin.getElem_fin, Vector.getElem_set]
  by_cases hy : y.val = y'.val
  · have hy' : y = y' := Fin.ext hy
    subst hy'
    by_cases hx : x.val = x'.val
    · have hx' : x = x' := Fin.ext hx
      subst hx'
      simp
    · have hx' : ¬x' = x := fun h => hx (congrArg Fin.val h.symm)
      simp [hx, hx']
  · have hy' : ¬y' = y := fun h => hy (congrArg Fin.val h.symm)
    simp [hy, hy']

@[simp] theorem Display.get_clear (y : Fin 32) (x : Fin 64) : Display.clear.get y x = false := by
  simp [Display.get, Display.clear]

/-- Two displays with the same pixels are equal. -/
theorem Display.ext_get {d e : Display} (h : ∀ y x, d.get y x = e.get y x) : d = e :=
  Vector.ext fun y hy => Vector.ext fun x hx => h ⟨y, hy⟩ ⟨x, hx⟩

end Sys2Proof.Machine
end

