-- ==== Sys2Proof/Laws/Fields.lean ====
section
/-! SUPPORT. One lemma per field for each composite operation that leaves the field alone: what the meanings of
Machine/Dispatch.lean are put together from. -/

namespace Sys2Proof.Machine

variable (s : State)

/-! ### Each operation is a change of the fields it writes and of no other -/

/-- `FX1E` changes `I` and the registers alone (R121). -/
theorem State.addToI_eq (x : Reg) : s.addToI x = (s.setRegs (s.addToI x).V).setI (s.addToI x).I := by
  unfold State.addToI
  split
  · split <;> rfl
  · rfl

/-- `FX0A` changes the registers, `pc` and the latch alone (R142). -/
theorem State.waitForKey_eq (x : Reg) : s.waitForKey x =
    ((s.setRegs (s.waitForKey x).V).setPc (s.waitForKey x).pc).setLatch (s.waitForKey x).latch := by
  unfold State.waitForKey State.waitRelease State.waitPress
  split
  · split
    · split <;> rfl
    · split <;> rfl
  · split <;> rfl

/-! ### State.skip -/

@[simp] theorem State.skip_V : s.skip.V = s.V := rfl
@[simp] theorem State.skip_I : s.skip.I = s.I := rfl
@[simp] theorem State.skip_stack : s.skip.stack = s.stack := rfl
@[simp] theorem State.skip_sp : s.skip.sp = s.sp := rfl
@[simp] theorem State.skip_DT : s.skip.DT = s.DT := rfl
@[simp] theorem State.skip_ST : s.skip.ST = s.ST := rfl
@[simp] theorem State.skip_mem : s.skip.mem = s.mem := rfl
@[simp] theorem State.skip_display : s.skip.display = s.display := rfl
@[simp] theorem State.skip_renderPending : s.skip.renderPending = s.renderPending := rfl
@[simp] theorem State.skip_latch : s.skip.latch = s.latch := rfl
@[simp] theorem State.skip_keys : s.skip.keys = s.keys := rfl
@[simp] theorem State.skip_cosmacMode : s.skip.cosmacMode = s.cosmacMode := rfl
@[simp] theorem State.skip_amigaMode : s.skip.amigaMode = s.amigaMode := rfl
@[simp] theorem State.skip_fault : s.skip.fault = s.fault := rfl
@[simp] theorem State.skip_started : s.skip.started = s.started := rfl
@[simp] theorem State.skip_draws : s.skip.draws = s.draws := rfl
@[simp] theorem State.skip_schedule : s.skip.schedule = s.schedule := rfl
@[simp] theorem State.skip_reg (r : Reg) : (s.skip.reg r) = s.reg r := rfl
@[simp] theorem State.skip_key (j : Key) : (s.skip.key j) = s.key j := rfl
@[simp] theorem State.skip_readByte (b' : Nat) : (s.skip.readByte b') = s.readByte b' := rfl
@[simp] theorem State.skip_blockAddr (i : Nat) : (s.skip.blockAddr i) = s.blockAddr i := rfl
@[simp] theorem State.skip_rand : (s.skip.rand) = s.rand := rfl

/-! ### State.respin -/

@[simp] theorem State.respin_V : s.respin.V = s.V := rfl
@[simp] theorem State.respin_I : s.respin.I = s.I := rfl
@[simp] theorem State.respin_stack : s.respin.stack = s.stack := rfl
@[simp] theorem State.respin_sp : s.respin.sp = s.sp := rfl
@[simp] theorem State.respin_DT : s.respin.DT = s.DT := rfl
@[simp] theorem State.respin_ST : s.respin.ST = s.ST := rfl
@[simp] theorem State.respin_mem : s.respin.mem = s.mem := rfl
@[simp] theorem State.respin_display : s.respin.display = s.display := rfl
@[simp] theorem State.respin_renderPending : s.respin.renderPending = s.renderPending := rfl
@[simp] theorem State.respin_latch : s.respin.latch = s.latch := rfl
@[simp] theorem State.respin_keys : s.respin.keys = s.keys := rfl
@[simp] theorem State.respin_cosmacMode : s.respin.cosmacMode = s.cosmacMode := rfl
@[simp] theorem State.respin_amigaMode : s.respin.amigaMode = s.amigaMode := rfl
@[simp] theorem State.respin_fault : s.respin.fault = s.fault := rfl
@[simp] theorem State.respin_started : s.respin.started = s.started := rfl
@[simp] theorem State.respin_draws : s.respin.draws = s.draws := rfl
@[simp] theorem State.respin_schedule : s.respin.schedule = s.schedule := rfl
@[simp] theorem State.respin_reg (r : Reg) : (s.respin.reg r) = s.reg r := rfl
@[simp] theorem State.respin_key (j : Key) : (s.respin.key j) = s.key j := rfl
@[simp] theorem State.respin_readByte (b' : Nat) : (s.respin.readByte b') = s.readByte b' := rfl
@[simp] theorem State.respin_blockAddr (i : Nat) : (s.respin.blockAddr i) = s.blockAddr i := rfl
@[simp] theorem State.respin_rand : (s.respin.rand) = s.rand := rfl

/-! ### State.skipIf -/

@[simp] theorem State.skipIf_V (c : Bool) : (s.skipIf c).V = s.V := by cases c <;> rfl
@[simp] theorem State.skipIf_I (c : Bool) : (s.skipIf c).I = s.I := by cases c <;> rfl
@[simp] theorem State.skipIf_stack (c : Bool) : (s.skipIf c).stack = s.stack := by cases c <;> rfl
@[simp] theorem State.skipIf_sp (c : Bool) : (s.skipIf c).sp = s.sp := by cases c <;> rfl
@[simp] theorem State.skipIf_DT (c : Bool) : (s.skipIf c).DT = s.DT := by cases c <;> rfl
@[simp] theorem State.skipIf_ST (c : Bool) : (s.skipIf c).ST = s.ST := by cases c <;> rfl
@[simp] theorem State.skipIf_mem (c : Bool) : (s.skipIf c).mem = s.mem := by cases c <;> rfl
@[simp] theorem State.skipIf_display (c : Bool) : (s.skipIf c).display = s.display := by cases c <;> rfl
@[simp] theorem State.skipIf_renderPending (c : Bool) : (s.skipIf c).renderPending = s.renderPending := by cases c <;> rfl
@[simp] theorem State.skipIf_latch (c : Bool) : (s.skipIf c).latch = s.latch := by cases c <;> rfl
@[simp] theorem State.skipIf_keys (c : Bool) : (s.skipIf c).keys = s.keys := by cases c <;> rfl
@[simp] theorem State.skipIf_cosmacMode (c : Bool) : (s.skipIf c).cosmacMode = s.cosmacMode := by cases c <;> rfl
@[simp] theorem State.skipIf_amigaMode (c : Bool) : (s.skipIf c).amigaMode = s.amigaMode := by cases c <;> rfl
@[simp] theorem State.skipIf_fault (c : Bool) : (s.skipIf c).fault = s.fault := by cases c <;> rfl
@[simp] theorem State.skipIf_started (c : Bool) : (s.skipIf c).started = s.started := by cases c <;> rfl
@[simp] theorem State.skipIf_draws (c : Bool) : (s.skipIf c).draws = s.draws := by cases c <;> rfl
@[simp] theorem State.skipIf_schedule (c : Bool) : (s.skipIf c).schedule = s.schedule := by cases c <;> rfl
@[simp] theorem State.skipIf_reg (c : Bool) (r : Reg) : ((s.skipIf c).reg r) = s.reg r := by simp [State.reg]
@[simp] theorem State.skipIf_key (c : Bool) (j : Key) : ((s.skipIf c).key j) = s.key j := by simp [State.key]
@[simp] theorem State.skipIf_readByte (c : Bool) (b' : Nat) : ((s.skipIf c).readByte b') = s.readByte b' := by simp [State.readByte]
@[simp] theorem State.skipIf_blockAddr (c : Bool) (i : Nat) : ((s.skipIf c).blockAddr i) = s.blockAddr i := by simp [State.blockAddr]
@[simp] theorem State.skipIf_rand (c : Bool) : ((s.skipIf c).rand) = s.rand := by simp [State.rand]

/-! ### State.advance -/

@[simp] theorem State.advance_V : s.advance.V = s.V := rfl
@[simp] theorem State.advance_I : s.advance.I = s.I := rfl
@[simp] theorem State.advance_stack : s.advance.stack = s.stack := rfl
@[simp] theorem State.advance_sp : s.advance.sp = s.sp := rfl
@[simp] theorem State.advance_DT : s.advance.DT = s.DT := rfl
@[simp] theorem State.advance_ST : s.advance.ST = s.ST := rfl
@[simp] theorem State.advance_mem : s.advance.mem = s.mem := rfl
@[simp] theorem State.advance_display : s.advance.display = s.display := rfl
@[simp] theorem State.advance_renderPending : s.advance.renderPending = s.renderPending := rfl
@[simp] theorem State.advance_latch : s.advance.latch = s.latch := rfl
@[simp] theorem State.advance_keys : s.advance.keys = s.keys := rfl
@[simp] theorem State.advance_cosmacMode : s.advance.cosmacMode = s.cosmacMode := rfl
@[simp] theorem State.advance_amigaMode : s.advance.amigaMode = s.amigaMode := rfl
@[simp] theorem State.advance_fault : s.advance.fault = s.fault := rfl
@[simp] theorem State.advance_draws : s.advance.draws = s.draws := rfl
@[simp] theorem State.advance_schedule : s.advance.schedule = s.schedule := rfl
@[simp] theorem State.advance_reg (r : Reg) : (s.advance.reg r) = s.reg r := rfl
@[simp] theorem State.advance_key (j : Key) : (s.advance.key j) = s.key j := rfl
@[simp] theorem State.advance_readByte (b' : Nat) : (s.advance.readByte b') = s.readByte b' := rfl
@[simp] theorem State.advance_blockAddr (i : Nat) : (s.advance.blockAddr i) = s.blockAddr i := rfl
@[simp] theorem State.advance_rand : (s.advance.rand) = s.rand := rfl

/-! ### State.raise -/

@[simp] theorem State.raise_V (c : FaultCause) : (s.raise c).V = s.V := rfl
@[simp] theorem State.raise_I (c : FaultCause) : (s.raise c).I = s.I := rfl
@[simp] theorem State.raise_stack (c : FaultCause) : (s.raise c).stack = s.stack := rfl
@[simp] theorem State.raise_sp (c : FaultCause) : (s.raise c).sp = s.sp := rfl
@[simp] theorem State.raise_DT (c : FaultCause) : (s.raise c).DT = s.DT := rfl
@[simp] theorem State.raise_ST (c : FaultCause) : (s.raise c).ST = s.ST := rfl
@[simp] theorem State.raise_mem (c : FaultCause) : (s.raise c).mem = s.mem := rfl
@[simp] theorem State.raise_display (c : FaultCause) : (s.raise c).display = s.display := rfl
@[simp] theorem State.raise_renderPending (c : FaultCause) : (s.raise c).renderPending = s.renderPending := rfl
@[simp] theorem State.raise_latch (c : FaultCause) : (s.raise c).latch = s.latch := rfl
@[simp] theorem State.raise_keys (c : FaultCause) : (s.raise c).keys = s.keys := rfl
@[simp] theorem State.raise_cosmacMode (c : FaultCause) : (s.raise c).cosmacMode = s.cosmacMode := rfl
@[simp] theorem State.raise_amigaMode (c : FaultCause) : (s.raise c).amigaMode = s.amigaMode := rfl
@[simp] theorem State.raise_started (c : FaultCause) : (s.raise c).started = s.started := rfl
@[simp] theorem State.raise_draws (c : FaultCause) : (s.raise c).draws = s.draws := rfl
@[simp] theorem State.raise_schedule (c : FaultCause) : (s.raise c).schedule = s.schedule := rfl
@[simp] theorem State.raise_reg (c : FaultCause) (r : Reg) : ((s.raise c).reg r) = s.reg r := rfl
@[simp] theorem State.raise_key (c : FaultCause) (j : Key) : ((s.raise c).key j) = s.key j := rfl
@[simp] theorem State.raise_readByte (c : FaultCause) (b' : Nat) : ((s.raise c).readByte b') = s.readByte b' := rfl
@[simp] theorem State.raise_blockAddr (c : FaultCause) (i : Nat) : ((s.raise c).blockAddr i) = s.blockAddr i := rfl
@[simp] theorem State.raise_rand (c : FaultCause) : ((s.raise c).rand) = s.rand := rfl

/-! ### State.nextDraw -/

@[simp] theorem State.nextDraw_V : s.nextDraw.V = s.V := rfl
@[simp] theorem State.nextDraw_I : s.nextDraw.I = s.I := rfl
@[simp] theorem State.nextDraw_pc : s.nextDraw.pc = s.pc := rfl
@[simp] theorem State.nextDraw_stack : s.nextDraw.stack = s.stack := rfl
@[simp] theorem State.nextDraw_sp : s.nextDraw.sp = s.sp := rfl
@[simp] theorem State.nextDraw_DT : s.nextDraw.DT = s.DT := rfl
@[simp] theorem State.nextDraw_ST : s.nextDraw.ST = s.ST := rfl
@[simp] theorem State.nextDraw_mem : s.nextDraw.mem = s.mem := rfl
@[simp] theorem State.nextDraw_display : s.nextDraw.display = s.display := rfl
@[simp] theorem State.nextDraw_renderPending : s.nextDraw.renderPending = s.renderPending := rfl
@[simp] theorem State.nextDraw_latch : s.nextDraw.latch = s.latch := rfl
@[simp] theorem State.nextDraw_keys : s.nextDraw.keys = s.keys := rfl
@[simp] theorem State.nextDraw_cosmacMode : s.nextDraw.cosmacMode = s.cosmacMode := rfl
@[simp] theorem State.nextDraw_amigaMode : s.nextDraw.amigaMode = s.amigaMode := rfl
@[simp] theorem State.nextDraw_fault : s.nextDraw.fault = s.fault := rfl
@[simp] theorem State.nextDraw_started : s.nextDraw.started = s.started := rfl
@[simp] theorem State.nextDraw_schedule : s.nextDraw.schedule = s.schedule := rfl
@[simp] theorem State.nextDraw_reg (r : Reg) : (s.nextDraw.reg r) = s.reg r := rfl
@[simp] theorem State.nextDraw_key (j : Key) : (s.nextDraw.key j) = s.key j := rfl
@[simp] theorem State.nextDraw_readByte (b' : Nat) : (s.nextDraw.readByte b') = s.readByte b' := rfl
@[simp] theorem State.nextDraw_blockAddr (i : Nat) : (s.nextDraw.blockAddr i) = s.blockAddr i := rfl

/-! ### State.setResultFlag -/

@[simp] theorem State.setResultFlag_I (x : Reg) (a b : Byte) : (s.setResultFlag x a b).I = s.I := rfl
@[simp] theorem State.setResultFlag_pc (x : Reg) (a b : Byte) : (s.setResultFlag x a b).pc = s.pc := rfl
@[simp] theorem State.setResultFlag_stack (x : Reg) (a b : Byte) : (s.setResultFlag x a b).stack = s.stack := rfl
@[simp] theorem State.setResultFlag_sp (x : Reg) (a b : Byte) : (s.setResultFlag x a b).sp = s.sp := rfl
@[simp] theorem State.setResultFlag_DT (x : Reg) (a b : Byte) : (s.setResultFlag x a b).DT = s.DT := rfl
@[simp] theorem State.setResultFlag_ST (x : Reg) (a b : Byte) : (s.setResultFlag x a b).ST = s.ST := rfl
@[simp] theorem State.setResultFlag_mem (x : Reg) (a b : Byte) : (s.setResultFlag x a b).mem = s.mem := rfl
@[simp] theorem State.setResultFlag_display (x : Reg) (a b : Byte) : (s.setResultFlag x a b).display = s.display := rfl
@[simp] theorem State.setResultFlag_renderPending (x : Reg) (a b : Byte) : (s.setResultFlag x a b).renderPending = s.renderPending := rfl
@[simp] theorem State.setResultFlag_latch (x : Reg) (a b : Byte) : (s.setResultFlag x a b).latch = s.latch := rfl
@[simp] theorem State.setResultFlag_keys (x : Reg) (a b : Byte) : (s.setResultFlag x a b).keys = s.keys := rfl
@[simp] theorem State.setResultFlag_cosmacMode (x : Reg) (a b : Byte) : (s.setResultFlag x a b).cosmacMode = s.cosmacMode := rfl
@[simp] theorem State.setResultFlag_amigaMode (x : Reg) (a b : Byte) : (s.setResultFlag x a b).amigaMode = s.amigaMode := rfl
@[simp] theorem State.setResultFlag_fault (x : Reg) (a b : Byte) : (s.setResultFlag x a b).fault = s.fault := rfl
@[simp] theorem State.setResultFlag_started (x : Reg) (a b : Byte) : (s.setResultFlag x a b).started = s.started := rfl
@[simp] theorem State.setResultFlag_draws (x : Reg) (a b : Byte) : (s.setResultFlag x a b).draws = s.draws := rfl
@[simp] theorem State.setResultFlag_schedule (x : Reg) (a b : Byte) : (s.setResultFlag x a b).schedule = s.schedule := rfl
@[simp] theorem State.setResultFlag_key (x : Reg) (a b : Byte) (j : Key) : ((s.setResultFlag x a b).key j) = s.key j := rfl
@[simp] theorem State.setResultFlag_readByte (x : Reg) (a b : Byte) (b' : Nat) : ((s.setResultFlag x a b).readByte b') = s.readByte b' := rfl
@[simp] theorem State.setResultFlag_blockAddr (x : Reg) (a b : Byte) (i : Nat) : ((s.setResultFlag x a b).blockAddr i) = s.blockAddr i := rfl
@[simp] theorem State.setResultFlag_rand (x : Reg) (a b : Byte) : ((s.setResultFlag x a b).rand) = s.rand := rfl

/-! ### State.setLogic -/

@[simp] theorem State.setLogic_I (x : Reg) (a : Byte) : (s.setLogic x a).I = s.I := by rw [State.setLogic_eq]; rfl
@[simp] theorem State.setLogic_pc (x : Reg) (a : Byte) : (s.setLogic x a).pc = s.pc := by rw [State.setLogic_eq]; rfl
@[simp] theorem State.setLogic_stack (x : Reg) (a : Byte) : (s.setLogic x a).stack = s.stack := by rw [State.setLogic_eq]; rfl
@[simp] theorem State.setLogic_sp (x : Reg) (a : Byte) : (s.setLogic x a).sp = s.sp := by rw [State.setLogic_eq]; rfl
@[simp] theorem State.setLogic_DT (x : Reg) (a : Byte) : (s.setLogic x a).DT = s.DT := by rw [State.setLogic_eq]; rfl
@[simp] theorem State.setLogic_ST (x : Reg) (a : Byte) : (s.setLogic x a).ST = s.ST := by rw [State.setLogic_eq]; rfl
@[simp] theorem State.setLogic_mem (x : Reg) (a : Byte) : (s.setLogic x a).mem = s.mem := by rw [State.setLogic_eq]; rfl
@[simp] theorem State.setLogic_display (x : Reg) (a : Byte) : (s.setLogic x a).display = s.display := by rw [State.setLogic_eq]; rfl
@[simp] theorem State.setLogic_renderPending (x : Reg) (a : Byte) : (s.setLogic x a).renderPending = s.renderPending := by rw [State.setLogic_eq]; rfl
@[simp] theorem State.setLogic_latch (x : Reg) (a : Byte) : (s.setLogic x a).latch = s.latch := by rw [State.setLogic_eq]; rfl
@[simp] theorem State.setLogic_keys (x : Reg) (a : Byte) : (s.setLogic x a).keys = s.keys := by rw [State.setLogic_eq]; rfl
@[simp] theorem State.setLogic_cosmacMode (x : Reg) (a : Byte) : (s.setLogic x a).cosmacMode = s.cosmacMode := by rw [State.setLogic_eq]; rfl
@[simp] theorem State.setLogic_amigaMode (x : Reg) (a : Byte) : (s.setLogic x a).amigaMode = s.amigaMode := by rw [State.setLogic_eq]; rfl
@[simp] theorem State.setLogic_fault (x : Reg) (a : Byte) : (s.setLogic x a).fault = s.fault := by rw [State.setLogic_eq]; rfl
@[simp] theorem State.setLogic_started (x : Reg) (a : Byte) : (s.setLogic x a).started = s.started := by rw [State.setLogic_eq]; rfl
@[simp] theorem State.setLogic_draws (x : Reg) (a : Byte) : (s.setLogic x a).draws = s.draws := by rw [State.setLogic_eq]; rfl
@[simp] theorem State.setLogic_schedule (x : Reg) (a : Byte) : (s.setLogic x a).schedule = s.schedule := by rw [State.setLogic_eq]; rfl
@[simp] theorem State.setLogic_key (x : Reg) (a : Byte) (j : Key) : ((s.setLogic x a).key j) = s.key j := by simp [State.key]
@[simp] theorem State.setLogic_readByte (x : Reg) (a : Byte) (b' : Nat) : ((s.setLogic x a).readByte b') = s.readByte b' := by simp [State.readByte]
@[simp] theorem State.setLogic_blockAddr (x : Reg) (a : Byte) (i : Nat) : ((s.setLogic x a).blockAddr i) = s.blockAddr i := by simp [State.blockAddr]
@[simp] theorem State.setLogic_rand (x : Reg) (a : Byte) : ((s.setLogic x a).rand) = s.rand := by simp [State.rand]

/-! ### State.storeBytes -/

@[simp] theorem State.storeBytes_V (a : Nat) (bs : List Byte) : (s.storeBytes a bs).V = s.V := by rw [State.storeBytes_eq]
@[simp] theorem State.storeBytes_I (a : Nat) (bs : List Byte) : (s.storeBytes a bs).I = s.I := by rw [State.storeBytes_eq]
@[simp] theorem State.storeBytes_pc (a : Nat) (bs : List Byte) : (s.storeBytes a bs).pc = s.pc := by rw [State.storeBytes_eq]
@[simp] theorem State.storeBytes_stack (a : Nat) (bs : List Byte) : (s.storeBytes a bs).stack = s.stack := by rw [State.storeBytes_eq]
@[simp] theorem State.storeBytes_sp (a : Nat) (bs : List Byte) : (s.storeBytes a bs).sp = s.sp := by rw [State.storeBytes_eq]
@[simp] theorem State.storeBytes_DT (a : Nat) (bs : List Byte) : (s.storeBytes a bs).DT = s.DT := by rw [State.storeBytes_eq]
@[simp] theorem State.storeBytes_ST (a : Nat) (bs : List Byte) : (s.storeBytes a bs).ST = s.ST := by rw [State.storeBytes_eq]
@[simp] theorem State.storeBytes_display (a : Nat) (bs : List Byte) : (s.storeBytes a bs).display = s.display := by rw [State.storeBytes_eq]
@[simp] theorem State.storeBytes_renderPending (a : Nat) (bs : List Byte) : (s.storeBytes a bs).renderPending = s.renderPending := by rw [State.storeBytes_eq]
@[simp] theorem State.storeBytes_latch (a : Nat) (bs : List Byte) : (s.storeBytes a bs).latch = s.latch := by rw [State.storeBytes_eq]
@[simp] theorem State.storeBytes_keys (a : Nat) (bs : List Byte) : (s.storeBytes a bs).keys = s.keys := by rw [State.storeBytes_eq]
@[simp] theorem State.storeBytes_cosmacMode (a : Nat) (bs : List Byte) : (s.storeBytes a bs).cosmacMode = s.cosmacMode := by rw [State.storeBytes_eq]
@[simp] theorem State.storeBytes_amigaMode (a : Nat) (bs : List Byte) : (s.storeBytes a bs).amigaMode = s.amigaMode := by rw [State.storeBytes_eq]
@[simp] theorem State.storeBytes_fault (a : Nat) (bs : List Byte) : (s.storeBytes a bs).fault = s.fault := by rw [State.storeBytes_eq]
@[simp] theorem State.storeBytes_started (a : Nat) (bs : List Byte) : (s.storeBytes a bs).started = s.started := by rw [State.storeBytes_eq]
@[simp] theorem State.storeBytes_draws (a : Nat) (bs : List Byte) : (s.storeBytes a bs).draws = s.draws := by rw [State.storeBytes_eq]
@[simp] theorem State.storeBytes_schedule (a : Nat) (bs : List Byte) : (s.storeBytes a bs).schedule = s.schedule := by rw [State.storeBytes_eq]
@[simp] theorem State.storeBytes_reg (a : Nat) (bs : List Byte) (r : Reg) : ((s.storeBytes a bs).reg r) = s.reg r := by simp [State.reg]
@[simp] theorem State.storeBytes_key (a : Nat) (bs : List Byte) (j : Key) : ((s.storeBytes a bs).key j) = s.key j := by simp [State.key]
@[simp] theorem State.storeBytes_blockAddr (a : Nat) (bs : List Byte) (i : Nat) : ((s.storeBytes a bs).blockAddr i) = s.blockAddr i := by simp [State.blockAddr]
@[simp] theorem State.storeBytes_rand (a : Nat) (bs : List Byte) : ((s.storeBytes a bs).rand) = s.rand := by simp [State.rand]

/-! ### State.addToI -/

@[simp] theorem State.addToI_pc (x : Reg) : (s.addToI x).pc = s.pc := by rw [State.addToI_eq]; rfl
@[simp] theorem State.addToI_stack (x : Reg) : (s.addToI x).stack = s.stack := by rw [State.addToI_eq]; rfl
@[simp] theorem State.addToI_sp (x : Reg) : (s.addToI x).sp = s.sp := by rw [State.addToI_eq]; rfl
@[simp] theorem State.addToI_DT (x : Reg) : (s.addToI x).DT = s.DT := by rw [State.addToI_eq]; rfl
@[simp] theorem State.addToI_ST (x : Reg) : (s.addToI x).ST = s.ST := by rw [State.addToI_eq]; rfl
@[simp] theorem State.addToI_mem (x : Reg) : (s.addToI x).mem = s.mem := by rw [State.addToI_eq]; rfl
@[simp] theorem State.addToI_display (x : Reg) : (s.addToI x).display = s.display := by rw [State.addToI_eq]; rfl
@[simp] theorem State.addToI_renderPending (x : Reg) : (s.addToI x).renderPending = s.renderPending := by rw [State.addToI_eq]; rfl
@[simp] theorem State.addToI_latch (x : Reg) : (s.addToI x).latch = s.latch := by rw [State.addToI_eq]; rfl
@[simp] theorem State.addToI_keys (x : Reg) : (s.addToI x).keys = s.keys := by rw [State.addToI_eq]; rfl
@[simp] theorem State.addToI_cosmacMode (x : Reg) : (s.addToI x).cosmacMode = s.cosmacMode := by rw [State.addToI_eq]; rfl
@[simp] theorem State.addToI_amigaMode (x : Reg) : (s.addToI x).amigaMode = s.amigaMode := by rw [State.addToI_eq]; rfl
@[simp] theorem State.addToI_fault (x : Reg) : (s.addToI x).fault = s.fault := by rw [State.addToI_eq]; rfl
@[simp] theorem State.addToI_started (x : Reg) : (s.addToI x).started = s.started := by rw [State.addToI_eq]; rfl
@[simp] theorem State.addToI_draws (x : Reg) : (s.addToI x).draws = s.draws := by rw [State.addToI_eq]; rfl
@[simp] theorem State.addToI_schedule (x : Reg) : (s.addToI x).schedule = s.schedule := by rw [State.addToI_eq]; rfl
@[simp] theorem State.addToI_key (x : Reg) (j : Key) : ((s.addToI x).key j) = s.key j := by simp [State.key]
@[simp] theorem State.addToI_readByte (x : Reg) (b' : Nat) : ((s.addToI x).readByte b') = s.readByte b' := by simp [State.readByte]
@[simp] theorem State.addToI_rand (x : Reg) : ((s.addToI x).rand) = s.rand := by simp [State.rand]

/-! ### State.waitForKey -/

@[simp] theorem State.waitForKey_I (x : Reg) : (s.waitForKey x).I = s.I := by rw [State.waitForKey_eq]; rfl
@[simp] theorem State.waitForKey_stack (x : Reg) : (s.waitForKey x).stack = s.stack := by rw [State.waitForKey_eq]; rfl
@[simp] theorem State.waitForKey_sp (x : Reg) : (s.waitForKey x).sp = s.sp := by rw [State.waitForKey_eq]; rfl
@[simp] theorem State.waitForKey_DT (x : Reg) : (s.waitForKey x).DT = s.DT := by rw [State.waitForKey_eq]; rfl
@[simp] theorem State.waitForKey_ST (x : Reg) : (s.waitForKey x).ST = s.ST := by rw [State.waitForKey_eq]; rfl
@[simp] theorem State.waitForKey_mem (x : Reg) : (s.waitForKey x).mem = s.mem := by rw [State.waitForKey_eq]; rfl
@[simp] theorem State.waitForKey_display (x : Reg) : (s.waitForKey x).display = s.display := by rw [State.waitForKey_eq]; rfl
@[simp] theorem State.waitForKey_renderPending (x : Reg) : (s.waitForKey x).renderPending = s.renderPending := by rw [State.waitForKey_eq]; rfl
@[simp] theorem State.waitForKey_keys (x : Reg) : (s.waitForKey x).keys = s.keys := by rw [State.waitForKey_eq]; rfl
@[simp] theorem State.waitForKey_cosmacMode (x : Reg) : (s.waitForKey x).cosmacMode = s.cosmacMode := by rw [State.waitForKey_eq]; rfl
@[simp] theorem State.waitForKey_amigaMode (x : Reg) : (s.waitForKey x).amigaMode = s.amigaMode := by rw [State.waitForKey_eq]; rfl
@[simp] theorem State.waitForKey_fault (x : Reg) : (s.waitForKey x).fault = s.fault := by rw [State.waitForKey_eq]; rfl
@[simp] theorem State.waitForKey_started (x : Reg) : (s.waitForKey x).started = s.started := by rw [State.waitForKey_eq]; rfl
@[simp] theorem State.waitForKey_draws (x : Reg) : (s.waitForKey x).draws = s.draws := by rw [State.waitForKey_eq]; rfl
@[simp] theorem State.waitForKey_schedule (x : Reg) : (s.waitForKey x).schedule = s.schedule := by rw [State.waitForKey_eq]; rfl
@[simp] theorem State.waitForKey_key (x : Reg) (j : Key) : ((s.waitForKey x).key j) = s.key j := by simp [State.key]
@[simp] theorem State.waitForKey_readByte (x : Reg) (b' : Nat) : ((s.waitForKey x).readByte b') = s.readByte b' := by simp [State.readByte]
@[simp] theorem State.waitForKey_blockAddr (x : Reg) (i : Nat) : ((s.waitForKey x).blockAddr i) = s.blockAddr i := by simp [State.blockAddr]
@[simp] theorem State.waitForKey_rand (x : Reg) : ((s.waitForKey x).rand) = s.rand := by simp [State.rand]

end Sys2Proof.Machine
end

