-- ==== Sys2Proof/Laws/Display.lean ====
section
/-! SUPPORT. The XOR compositor (spec/43_display.md R131, R132): a sprite is a list of distinct pixels, drawing them
toggles exactly these, and the collision flag says whether one of them was set. -/

namespace Sys2Proof.Machine

/-- The pixels a sprite row lights, columns from the left. -/
def rowPixels (cosmac : Bool) (x0 y0 r : Nat) (b : Byte) : List (Fin 32 × Fin 64) :=
  (List.range 8).filterMap fun c => if spriteBit b c then placePixel cosmac x0 y0 r c else none

/-- The pixels a sprite lights, row by row. -/
def State.spritePixels (s : State) (x0 y0 n : Nat) : List (Fin 32 × Fin 64) :=
  (List.range n).flatMap fun r => rowPixels s.cosmacMode x0 y0 r (s.readByte (s.blockAddr r))

/-- One pixel on the grid drawn. -/
def drawAt (acc : Display × Bool) (p : Fin 32 × Fin 64) : Display × Bool :=
  (acc.1.toggle p.1 p.2, acc.2 || acc.1.get p.1 p.2)

/-- Drawing a row is drawing its pixels one after another. -/
theorem drawRow_eq (cosmac : Bool) (x0 y0 r : Nat) (b : Byte) (acc : Display × Bool) :
    drawRow cosmac x0 y0 r b acc = (rowPixels cosmac x0 y0 r b).foldl drawAt acc := by
  unfold drawRow rowPixels
  rw [List.foldl_filterMap]
  congr 1
  funext a c
  split
  · cases placePixel cosmac x0 y0 r c <;> rfl
  · rfl

/-- Drawing a sprite is drawing its pixels one after another. -/
theorem State.drawSprite_eq (s : State) (x0 y0 n : Nat) : s.drawSprite x0 y0 n =
    (s.spritePixels x0 y0 n).foldl drawAt (s.display, false) := by
  unfold State.drawSprite State.spritePixels
  rw [List.foldl_flatMap]
  simp only [drawRow_eq]

/-- Drawing distinct pixels toggles exactly these; the flag becomes set when one of them was set before. -/
theorem drawPixels (ps : List (Fin 32 × Fin 64)) (hn : ps.Nodup) (d : Display) (f : Bool) :
    (∀ row col, (ps.foldl drawAt (d, f)).1.get row col =
      (d.get row col ^^ decide ((row, col) ∈ ps))) ∧
    ((ps.foldl drawAt (d, f)).2 = true ↔
      f = true ∨ ∃ row col, d.get row col = true ∧ (row, col) ∈ ps) := by
  induction ps generalizing d f with
  | nil => simp
  | cons p ps ih =>
    obtain ⟨y, x⟩ := p
    obtain ⟨hp, hn⟩ := List.nodup_cons.1 hn
    obtain ⟨h1, h2⟩ := ih hn (d.toggle y x) (f || d.get y x)
    rw [List.foldl_cons, drawAt]
    refine ⟨fun row col => ?_, ?_⟩
    · rw [h1, Display.get_toggle]
      by_cases h : row = y ∧ col = x
      · obtain ⟨rfl, rfl⟩ := h
        simp [hp]
      · have h' : (row, col) ≠ (y, x) := by simpa [Prod.ext_iff] using h
        simp [h, h']
    · rw [h2, Bool.or_eq_true, or_assoc]
      refine or_congr_right ⟨?_, ?_⟩
      · rintro (h | ⟨row, col, h, hm⟩)
        · exact ⟨y, x, h, List.mem_cons_self⟩
        · have hne : ¬(row = y ∧ col = x) := by rintro ⟨rfl, rfl⟩; exact hp hm
          rw [Display.get_toggle, if_neg hne] at h
          exact ⟨row, col, h, List.mem_cons_of_mem _ hm⟩
      · rintro ⟨row, col, h, hm⟩
        rcases List.mem_cons.1 hm with he | hm'
        · obtain ⟨rfl, rfl⟩ := Prod.ext_iff.1 he
          exact .inl h
        · have hne : ¬(row = y ∧ col = x) := by rintro ⟨rfl, rfl⟩; exact hp hm'
          exact .inr ⟨row, col, by rwa [Display.get_toggle, if_neg hne], hm'⟩

/-- Where a sprite pixel lands, from a corner on the grid (R132). -/
theorem placePixel_eq_some {cosmac : Bool} {x0 y0 r c : Nat} {row : Fin 32} {col : Fin 64} :
    placePixel cosmac x0 y0 r c = some (row, col) ↔
      if cosmac then row.val = y0 + r ∧ col.val = x0 + c
      else row.val = (y0 + r) % 32 ∧ col.val = (x0 + c) % 64 := by
  have hr := row.isLt
  have hc := col.isLt
  unfold placePixel
  cases cosmac with
  | false => simp [Prod.ext_iff, Fin.ext_iff, eq_comm]
  | true =>
    simp only [Bool.true_and, Bool.or_eq_true, decide_eq_true_eq, if_true]
    split
    · simp only [reduceCtorEq, false_iff]
      omega
    · simp only [Option.some.injEq, Prod.mk.injEq, Fin.ext_iff]
      omega

/-- A pixel is one of the sprite's exactly when the sprite covers it. -/
theorem State.mem_spritePixels (s : State) (x0 y0 n : Nat) (row : Fin 32) (col : Fin 64) :
    (row, col) ∈ s.spritePixels x0 y0 n ↔ s.spriteCovers x0 y0 n row col := by
  simp only [State.spritePixels, rowPixels, List.mem_flatMap, List.mem_filterMap, List.mem_range, spriteBit,
    State.spriteCovers]
  refine exists_congr fun r => and_congr_right fun _ => exists_congr fun c => and_congr_right fun _ => ?_
  rw [← placePixel_eq_some]
  exact Option.ite_none_right_eq_some

/-- From a corner on the grid a sprite of at most 15 rows lights no pixel twice, in either mode. -/
theorem State.spritePixels_nodup (s : State) (x0 y0 n : Nat) (hn : n < 16) : (s.spritePixels x0 y0 n).Nodup := by
  have place_inj : ∀ {r c r' c' : Nat} {p : Fin 32 × Fin 64}, r < 16 → c < 8 → r' < 16 → c' < 8 →
      placePixel s.cosmacMode x0 y0 r c = some p → placePixel s.cosmacMode x0 y0 r' c' = some p → r = r' ∧ c = c' := by
    rintro r c r' c' ⟨row, col⟩ hr hc hr' hc' h h'
    rw [placePixel_eq_some] at h h'
    split at h
    · rw [if_pos ‹_›] at h'
      omega
    · rw [if_neg ‹_›] at h'
      omega
  unfold State.spritePixels
  rw [List.nodup_flatMap]
  refine ⟨fun r hr => ?_, ?_⟩
  · have hr := List.mem_range.1 hr
    rw [rowPixels, List.Nodup, List.pairwise_filterMap]
    refine List.pairwise_lt_range.imp_of_mem fun {c c'} hc hc' hlt p hp q hq hpq => ?_
    have hc := List.mem_range.1 hc
    have hc' := List.mem_range.1 hc'
    subst hpq
    split at hp
    · split at hq
      · have := (place_inj (by omega) hc (by omega) hc' hp hq).2
        omega
      · cases hq
    · cases hp
  · refine List.pairwise_lt_range.imp_of_mem fun {r r'} hr hr' hlt p hp hq => ?_
    have hr := List.mem_range.1 hr
    have hr' := List.mem_range.1 hr'
    obtain ⟨c, hc, hp⟩ := List.mem_filterMap.1 hp
    obtain ⟨c', hc', hq⟩ := List.mem_filterMap.1 hq
    split at hp
    · split at hq
      · have := (place_inj (by omega) (List.mem_range.1 hc) (by omega) (List.mem_range.1 hc') hp hq).1
        omega
      · cases hq
    · cases hp

end Sys2Proof.Machine
end

