-- ==== Sys2Proof/Laws/Exec.lean ====
section
/-! SUPPORT. What each instruction answers, over the shared operations, one lemma per constructor: a proof about exec
rewrites with these and cites the laws of the operations. -/

namespace Sys2Proof.Machine

variable (s : State)

@[simp] theorem exec_cls : exec .cls s = .next ((s.setDisplay Display.clear).setRender true) := rfl

@[simp] theorem exec_jp (nnn : Addr) : exec (.jp nnn) s = .next (s.setPc (nnn.setWidth 16)) := rfl

@[simp] theorem exec_seImm (x : Reg) (kk : Byte) : exec (.seImm x kk) s = .next (s.skipIf (s.reg x == kk)) := rfl

@[simp] theorem exec_sneImm (x : Reg) (kk : Byte) : exec (.sneImm x kk) s = .next (s.skipIf (s.reg x != kk)) := rfl

@[simp] theorem exec_seReg (x y : Reg) : exec (.seReg x y) s = .next (s.skipIf (s.reg x == s.reg y)) := rfl

@[simp] theorem exec_ldImm (x : Reg) (kk : Byte) : exec (.ldImm x kk) s = .next (s.setReg x kk) := rfl

@[simp] theorem exec_addImm (x : Reg) (kk : Byte) : exec (.addImm x kk) s = .next (s.setReg x (s.reg x + kk)) := rfl

@[simp] theorem exec_ldReg (x y : Reg) : exec (.ldReg x y) s = .next (s.setReg x (s.reg y)) := rfl

@[simp] theorem exec_orReg (x y : Reg) : exec (.orReg x y) s = .next (s.setLogic x (s.reg x ||| s.reg y)) := rfl

@[simp] theorem exec_andReg (x y : Reg) : exec (.andReg x y) s = .next (s.setLogic x (s.reg x &&& s.reg y)) := rfl

@[simp] theorem exec_xorReg (x y : Reg) : exec (.xorReg x y) s = .next (s.setLogic x (s.reg x ^^^ s.reg y)) := rfl

@[simp] theorem exec_addReg (x y : Reg) :
    exec (.addReg x y) s = .next (s.setResultFlag x (s.reg x + s.reg y) (carryFlag (s.reg x) (s.reg y))) := rfl

@[simp] theorem exec_subReg (x y : Reg) :
    exec (.subReg x y) s = .next (s.setResultFlag x (s.reg x - s.reg y) (noBorrowFlag (s.reg x) (s.reg y))) := rfl

@[simp] theorem exec_shr (x y : Reg) :
    exec (.shr x y) s = .next (s.setResultFlag x (s.shiftSource x y >>> 1) (shiftedOutLow (s.shiftSource x y))) := rfl

@[simp] theorem exec_subnReg (x y : Reg) :
    exec (.subnReg x y) s = .next (s.setResultFlag x (s.reg y - s.reg x) (noBorrowFlag (s.reg y) (s.reg x))) := rfl

@[simp] theorem exec_shl (x y : Reg) :
    exec (.shl x y) s = .next (s.setResultFlag x (s.shiftSource x y <<< 1) (shiftedOutHigh (s.shiftSource x y))) := rfl

@[simp] theorem exec_sneReg (x y : Reg) : exec (.sneReg x y) s = .next (s.skipIf (s.reg x != s.reg y)) := rfl

@[simp] theorem exec_ldI (nnn : Addr) : exec (.ldI nnn) s = .next (s.setI (nnn.setWidth 16)) := rfl

@[simp] theorem exec_jpOffset (nnn : Addr) (x : Reg) :
    exec (.jpOffset nnn x) s = .next (s.setPc (s.offsetTarget nnn x)) := rfl

@[simp] theorem exec_rnd (x : Reg) (kk : Byte) :
    exec (.rnd x kk) s = .next ((s.setReg x (s.rand &&& kk)).nextDraw) := rfl

@[simp] theorem exec_drw (x y : Reg) (n : Fin 16) :
    exec (.drw x y n) s = .next (((s.setDisplay (s.drawSprite (s.spriteColumn x) (s.spriteRow y) n.val).1).setReg VF
      (flagByte (s.drawSprite (s.spriteColumn x) (s.spriteRow y) n.val).2)).setRender true) := rfl

@[simp] theorem exec_skp (x : Reg) : exec (.skp x) s = .next (s.skipIf (s.key (lowNibble (s.reg x)))) := rfl

@[simp] theorem exec_sknp (x : Reg) : exec (.sknp x) s = .next (s.skipIf (!s.key (lowNibble (s.reg x)))) := rfl

@[simp] theorem exec_readDT (x : Reg) : exec (.readDT x) s = .next (s.setReg x s.DT) := rfl

@[simp] theorem exec_waitKey (x : Reg) : exec (.waitKey x) s = .next (s.waitForKey x) := rfl

@[simp] theorem exec_setDT (x : Reg) : exec (.setDT x) s = .next (s.setDT (s.reg x)) := rfl

@[simp] theorem exec_setST (x : Reg) : exec (.setST x) s = .next (s.setST (s.reg x)) := rfl

@[simp] theorem exec_addI (x : Reg) : exec (.addI x) s = .next (s.addToI x) := rfl

@[simp] theorem exec_ldFont (x : Reg) : exec (.ldFont x) s = .next (s.setI (glyphAddr (s.reg x))) := rfl

@[simp] theorem exec_storeBcd (x : Reg) :
    exec (.storeBcd x) s = .next (s.storeBytes (s.blockAddr 0) (bcdDigits (s.reg x))) := rfl

@[simp] theorem exec_storeRegs (x : Reg) :
    exec (.storeRegs x) s = .next ((s.storeBytes (s.blockAddr 0) (s.regsUpTo x)).setI (s.blockNextI x)) := rfl

@[simp] theorem exec_loadRegs (x : Reg) :
    exec (.loadRegs x) s = .next ((s.setRegs (s.regsLoaded x)).setI (s.blockNextI x)) := rfl

/-- A call below 16 entries pushes the advanced `pc` and jumps (R82). -/
theorem exec_call_of_lt (nnn : Addr) (h : s.sp.val < 16) : exec (.call nnn) s =
    .next ((s.setStack (s.stack.set s.sp.val s.pc h) ⟨s.sp.val + 1, Nat.succ_lt_succ h⟩).setPc (nnn.setWidth 16)) := by
  simp only [exec, execCall, s.push_of_lt s.pc h]

/-- A call with 16 entries raises StackOverflow (R82, R152). -/
theorem exec_call_of_full (nnn : Addr) (h : s.sp.val = 16) : exec (.call nnn) s = .next (s.raise .stackOverflow) := by
  simp only [exec, execCall, (s.push_eq_none s.pc).2 h]

/-- A return with entries pops into `pc` (R80). -/
theorem exec_ret_of_pos (h : 0 < s.sp.val) : ∃ lt : s.sp.val - 1 < 16, exec .ret s =
    .next ((s.setStack s.stack ⟨s.sp.val - 1, Nat.lt_succ_of_lt lt⟩).setPc s.stack[s.sp.val - 1]) := by
  obtain ⟨w, t, hp⟩ := s.pop_of_pos h
  obtain ⟨-, lt, rfl, rfl⟩ := s.pop_some hp
  exact ⟨lt, by simp only [exec, execRet, hp]⟩

/-- A return with an empty stack raises StackUnderflow (R80, R153). -/
theorem exec_ret_of_empty (h : s.sp.val = 0) : exec .ret s = .next (s.raise .stackUnderflow) := by
  simp only [exec, execRet, (s.pop_eq_none).2 h]

/-- Every instruction answers a next state; this says which operation made it for the two that can fault. -/
theorem exec_call_cases {nnn : Addr} {t : State} (h : exec (.call nnn) s = .next t) :
    (s.sp.val = 16 ∧ t = s.raise .stackOverflow) ∨ ∃ lt : s.sp.val < 16,
      t = (s.setStack (s.stack.set s.sp.val s.pc lt) ⟨s.sp.val + 1, Nat.succ_lt_succ lt⟩).setPc (nnn.setWidth 16) := by
  by_cases lt : s.sp.val < 16
  · rw [exec_call_of_lt s nnn lt] at h
    exact .inr ⟨lt, by simpa using h.symm⟩
  · have full : s.sp.val = 16 := by have : s.sp.val < 17 := s.sp.isLt; omega
    rw [exec_call_of_full s nnn full] at h
    exact .inl ⟨full, by simpa using h.symm⟩

/-- The same for the return. -/
theorem exec_ret_cases {t : State} (h : exec .ret s = .next t) :
    (s.sp.val = 0 ∧ t = s.raise .stackUnderflow) ∨ ∃ (_ : 0 < s.sp.val) (lt : s.sp.val - 1 < 16),
      t = (s.setStack s.stack ⟨s.sp.val - 1, Nat.lt_succ_of_lt lt⟩).setPc s.stack[s.sp.val - 1] := by
  by_cases pos : 0 < s.sp.val
  · obtain ⟨lt, he⟩ := exec_ret_of_pos s pos
    rw [he] at h
    exact .inr ⟨pos, lt, by simpa using h.symm⟩
  · have empty : s.sp.val = 0 := by omega
    rw [exec_ret_of_empty s empty] at h
    exact .inl ⟨empty, by simpa using h.symm⟩

end Sys2Proof.Machine
end

