-- ==== Sys2Proof/Laws/Operands.lean ====
section
/-! SUPPORT. What each operand form, flag computation and multi-branch operation gives, said once. -/

namespace Sys2Proof.Machine

variable (s : State)

/-! ### Operand forms -/

theorem lowNibble_val (v : Byte) : (lowNibble v).val = v.toNat % 16 := rfl

/-- A glyph address is `0x050 + 5 * d`, so inside the font region (R122). -/
theorem glyphAddr_toNat (v : Byte) : (glyphAddr v).toNat = 0x050 + 5 * (v.toNat % 16) := by
  simp only [glyphAddr, lowNibble, Config.fontBase, BitVec.toNat_ofNat]
  omega

/-- The new `I` of a block copy: masked to 12 bits in COSMAC mode, the old one otherwise (R124, R125). -/
theorem State.blockNextI_toNat (x : Reg) :
    (s.blockNextI x).toNat = if s.cosmacMode then (s.I.toNat + x.val + 1) % 4096 else s.I.toNat := by
  unfold State.blockNextI
  split
  · simp only [State.blockAddr, trunc12, Config.memSize, BitVec.toNat_ofNat]
    omega
  · rfl

@[simp] theorem State.regsUpTo_length (x : Reg) : (s.regsUpTo x).length = x.val + 1 := by
  have := x.isLt
  simp only [State.regsUpTo, List.length_take, Vector.length_toList]
  omega

theorem State.regsUpTo_getElem (x r : Reg) (h : r.val < (s.regsUpTo x).length) :
    (s.regsUpTo x)[r.val] = s.reg r := by
  simp [State.regsUpTo, State.reg]

/-- The registers after a block load: the loaded bytes up to `x`, the old registers above. -/
theorem State.setRegs_regsLoaded_reg (x r : Reg) : (s.setRegs (s.regsLoaded x)).reg r =
    if r ≤ x then s.readByte (s.blockAddr r.val) else s.reg r := by
  simp only [State.setRegs, State.reg, State.regsLoaded, Fin.getElem_fin, Vector.getElem_ofFn, Fin.le_def]

/-- The target of `BNNN` (R87). -/
theorem State.offsetTarget_toNat (nnn : Addr) (x : Reg) : (s.offsetTarget nnn x).toNat =
    (nnn.toNat + (if s.cosmacMode then s.reg 0 else s.reg x).toNat) % 4096 := by
  have lt := trunc12_lt (nnn.toNat + (if s.cosmacMode then s.reg 0 else s.reg x).toNat)
  rw [Config.memSize] at lt
  exact (BitVec.toNat_ofNat ..).trans (Nat.mod_eq_of_lt (by omega))

/-- The lowest pressed key is `k` exactly when `k` is pressed and no lower key is (R142). -/
theorem State.lowestPressed_eq_some (k : Key) :
    s.lowestPressed = some k ↔ s.key k = true ∧ ∀ j, j < k → s.key j = false := by
  unfold State.lowestPressed
  rw [List.find?_eq_some_iff_getElem]
  constructor
  · rintro ⟨hk, i, hi, he, hb⟩
    have hki : k.val = i := by rw [← he]; simp
    refine ⟨hk, fun j hj => ?_⟩
    have := hb j.val (by rw [← hki]; exact hj)
    simpa using this
  · rintro ⟨hk, hb⟩
    refine ⟨hk, k.val, by simp, by simp, fun j hj => ?_⟩
    have := hb ⟨j, hj.trans k.isLt⟩ hj
    simpa using this

/-- No key is lowest exactly when none is pressed. -/
theorem State.lowestPressed_eq_none : s.lowestPressed = none ↔ ∀ k, s.key k = false := by
  unfold State.lowestPressed
  rw [List.find?_eq_none]
  simp

/-! ### Flags and shifts -/

theorem flagByte_toNat (b : Bool) : (flagByte b).toNat = if b then 1 else 0 := by cases b <;> rfl

theorem carryFlag_toNat (a b : Byte) : (carryFlag a b).toNat = if 255 < a.toNat + b.toNat then 1 else 0 := by
  simp [carryFlag, flagByte_toNat]

theorem noBorrowFlag_toNat (a b : Byte) : (noBorrowFlag a b).toNat = if b.toNat ≤ a.toNat then 1 else 0 := by
  simp [noBorrowFlag, flagByte_toNat]

theorem shiftedOutLow_toNat (v : Byte) : (shiftedOutLow v).toNat = v.toNat % 2 := by
  revert v
  decide

theorem shiftedOutHigh_toNat (v : Byte) : (shiftedOutHigh v).toNat = v.toNat / 128 := by
  revert v
  decide

/-! ### Operations of several branches -/

/-- What `FX1E` leaves in `I` (R121). -/
theorem State.addToI_I_toNat (x : Reg) : (s.addToI x).I.toNat = min (s.I.toNat + (s.reg x).toNat) 0xFFF := by
  unfold State.addToI
  split
  · split <;> simp <;> omega
  · simp only [State.setI_I, BitVec.toNat_ofNat]
    omega

/-- What `FX1E` leaves in the registers: `VF` is 1 after an overflow in Amiga mode, and nothing else changes (R121). -/
theorem State.addToI_reg (x r : Reg) : (s.addToI x).reg r =
    if r = VF ∧ s.amigaMode = true ∧ 0xFFF < s.I.toNat + (s.reg x).toNat then 1 else s.reg r := by
  unfold State.addToI
  split
  · split <;> simp [*]
  · simp [*]

/-- Everything `FX0A` can do: wait, latch and wait, or finish with a key (R142). -/
theorem State.waitForKey_cases (x : Reg) :
    (s.waitForKey x = s.respin) ∨
    (s.cosmacMode = true ∧ s.latch = none ∧ ∃ k, s.lowestPressed = some k ∧
      s.waitForKey x = (s.setLatch (some k)).respin) ∨
    (s.cosmacMode = false ∧ ∃ k, s.lowestPressed = some k ∧ s.waitForKey x = s.setReg x (BitVec.ofNat 8 k.val)) ∨
    (s.cosmacMode = true ∧ ∃ j, s.latch = some j ∧ s.key j = false ∧
      s.waitForKey x = (s.setReg x (BitVec.ofNat 8 j.val)).setLatch none) := by
  cases hm : s.cosmacMode with
  | false =>
    cases hp : s.lowestPressed with
    | none => exact .inl (by simp [State.waitForKey, State.waitPress, hm, hp])
    | some k => exact .inr (.inr (.inl ⟨rfl, k, rfl, by simp [State.waitForKey, State.waitPress, hm, hp]⟩))
  | true =>
    cases hl : s.latch with
    | none =>
      cases hp : s.lowestPressed with
      | none => exact .inl (by simp [State.waitForKey, State.waitRelease, hm, hl, hp])
      | some k => exact .inr (.inl ⟨rfl, rfl, k, rfl, by simp [State.waitForKey, State.waitRelease, hm, hl, hp]⟩)
    | some j =>
      cases hk : s.key j with
      | true => exact .inl (by simp [State.waitForKey, State.waitRelease, hm, hl, hk])
      | false =>
        exact .inr (.inr (.inr ⟨rfl, j, rfl, hk, by simp [State.waitForKey, State.waitRelease, hm, hl, hk]⟩))

/-- The step back of a key wait undoes the advance of the fetch (R142). -/
theorem State.advance_respin : s.advance.respin = s.setStarted true := by
  simp [State.respin, State.advance, State.setPc, State.setStarted]

/-- Outside COSMAC mode `FX0A` leaves an empty latch empty (R18). -/
theorem State.waitForKey_latch_none (x : Reg) (hm : s.cosmacMode = false) (hl : s.latch = none) :
    (s.waitForKey x).latch = none := by
  rcases s.waitForKey_cases x with h | ⟨hc, -⟩ | ⟨-, k, -, h⟩ | ⟨hc, -⟩
  · rw [h]; exact hl
  · simp [hm] at hc
  · rw [h]; exact hl
  · simp [hm] at hc

end Sys2Proof.Machine
end

