-- ==== Sys2Proof/Laws/PerInstr.lean ====
section
/-! SUPPORT. Facts proved instruction by instruction, one lemma per constructor of Instr. Family EncodesRow: the word the
encoder writes for a well-formed instruction hits a row of the opcode map, and that row reads the instruction back. -/

namespace Sys2Proof.Laws.EncodesRow

/-- The encoded word hits some row of the map that builds the instruction from it. -/
def Statement (i : Instr) : Prop :=
  i.WellFormed → ∃ r ∈ opcodeTable, r.hits (encode i) = true ∧ r.build (encode i) = i

/-- The same, of the row at a place in the map. -/
theorem of_row {i : Instr} (n : Nat) (hn : n < opcodeTable.length)
    (h : i.WellFormed → (opcodeTable[n]).hits (encode i) = true ∧ (opcodeTable[n]).build (encode i) = i) :
    Statement i := fun hw => ⟨opcodeTable[n], List.getElem_mem hn, h hw⟩

theorem cls : Statement .cls := of_row 0 (by decide) (by decide)

theorem ret : Statement .ret := of_row 1 (by decide) (by decide)

theorem jp (nnn : Addr) : Statement (.jp nnn) := by
  obtain ⟨h, hn, -⟩ := encodeNNN_fields (p := 0x1000) (by decide) nnn
  exact of_row 2 (by decide) fun _ => ⟨OpcodeRow.hits_iff.2 h, congrArg Instr.jp hn⟩

theorem call (nnn : Addr) : Statement (.call nnn) := by
  obtain ⟨h, hn, -⟩ := encodeNNN_fields (p := 0x2000) (by decide) nnn
  exact of_row 3 (by decide) fun _ => ⟨OpcodeRow.hits_iff.2 h, congrArg Instr.call hn⟩

theorem seImm (x : Reg) (kk : Byte) : Statement (.seImm x kk) := by
  obtain ⟨h, hx, hk⟩ := encodeXKK_fields (p := 0x3000) (by decide) x kk
  exact of_row 4 (by decide) fun _ => ⟨OpcodeRow.hits_iff.2 h, congrArg₂ Instr.seImm hx hk⟩

theorem sneImm (x : Reg) (kk : Byte) : Statement (.sneImm x kk) := by
  obtain ⟨h, hx, hk⟩ := encodeXKK_fields (p := 0x4000) (by decide) x kk
  exact of_row 5 (by decide) fun _ => ⟨OpcodeRow.hits_iff.2 h, congrArg₂ Instr.sneImm hx hk⟩

theorem seReg (x y : Reg) : Statement (.seReg x y) :=
  of_row 6 (by decide) fun _ => by revert x y; decide

theorem ldImm (x : Reg) (kk : Byte) : Statement (.ldImm x kk) := by
  obtain ⟨h, hx, hk⟩ := encodeXKK_fields (p := 0x6000) (by decide) x kk
  exact of_row 7 (by decide) fun _ => ⟨OpcodeRow.hits_iff.2 h, congrArg₂ Instr.ldImm hx hk⟩

theorem addImm (x : Reg) (kk : Byte) : Statement (.addImm x kk) := by
  obtain ⟨h, hx, hk⟩ := encodeXKK_fields (p := 0x7000) (by decide) x kk
  exact of_row 8 (by decide) fun _ => ⟨OpcodeRow.hits_iff.2 h, congrArg₂ Instr.addImm hx hk⟩

theorem ldReg (x y : Reg) : Statement (.ldReg x y) :=
  of_row 9 (by decide) fun _ => by revert x y; decide

theorem orReg (x y : Reg) : Statement (.orReg x y) :=
  of_row 10 (by decide) fun _ => by revert x y; decide

theorem andReg (x y : Reg) : Statement (.andReg x y) :=
  of_row 11 (by decide) fun _ => by revert x y; decide

theorem xorReg (x y : Reg) : Statement (.xorReg x y) :=
  of_row 12 (by decide) fun _ => by revert x y; decide

theorem addReg (x y : Reg) : Statement (.addReg x y) :=
  of_row 13 (by decide) fun _ => by revert x y; decide

theorem subReg (x y : Reg) : Statement (.subReg x y) :=
  of_row 14 (by decide) fun _ => by revert x y; decide

theorem shr (x y : Reg) : Statement (.shr x y) :=
  of_row 15 (by decide) fun _ => by revert x y; decide

theorem subnReg (x y : Reg) : Statement (.subnReg x y) :=
  of_row 16 (by decide) fun _ => by revert x y; decide

theorem shl (x y : Reg) : Statement (.shl x y) :=
  of_row 17 (by decide) fun _ => by revert x y; decide

theorem sneReg (x y : Reg) : Statement (.sneReg x y) :=
  of_row 18 (by decide) fun _ => by revert x y; decide

theorem ldI (nnn : Addr) : Statement (.ldI nnn) := by
  obtain ⟨h, hn, -⟩ := encodeNNN_fields (p := 0xA000) (by decide) nnn
  exact of_row 19 (by decide) fun _ => ⟨OpcodeRow.hits_iff.2 h, congrArg Instr.ldI hn⟩

/-- `BNNN` reads its register from the top nibble of its address, which well-formedness says it is (R87). -/
theorem jpOffset (nnn : Addr) (x : Reg) : Statement (.jpOffset nnn x) := by
  obtain ⟨h, hn, hx⟩ := encodeNNN_fields (p := 0xB000) (by decide) nnn
  refine of_row 20 (by decide) fun hw => ⟨OpcodeRow.hits_iff.2 h, congrArg₂ Instr.jpOffset hn (Fin.ext (hx.trans ?_))⟩
  exact (eq_of_beq (a := x.val) hw).symm

theorem rnd (x : Reg) (kk : Byte) : Statement (.rnd x kk) := by
  obtain ⟨h, hx, hk⟩ := encodeXKK_fields (p := 0xC000) (by decide) x kk
  exact of_row 21 (by decide) fun _ => ⟨OpcodeRow.hits_iff.2 h, congrArg₂ Instr.rnd hx hk⟩

theorem drw (x y : Reg) (n : Fin 16) : Statement (.drw x y n) := by
  obtain ⟨h, hx, hy, hn⟩ := encode_drw_fields x y n
  refine of_row 22 (by decide) fun _ => ⟨OpcodeRow.hits_iff.2 h, ?_⟩
  change Instr.drw (fieldX (encode (.drw x y n))) (fieldY (encode (.drw x y n))) (fieldN (encode (.drw x y n))) = _
  rw [hx, hy, hn]

theorem skp (x : Reg) : Statement (.skp x) :=
  of_row 23 (by decide) fun _ => by revert x; decide

theorem sknp (x : Reg) : Statement (.sknp x) :=
  of_row 24 (by decide) fun _ => by revert x; decide

theorem readDT (x : Reg) : Statement (.readDT x) :=
  of_row 25 (by decide) fun _ => by revert x; decide

theorem waitKey (x : Reg) : Statement (.waitKey x) :=
  of_row 26 (by decide) fun _ => by revert x; decide

theorem setDT (x : Reg) : Statement (.setDT x) :=
  of_row 27 (by decide) fun _ => by revert x; decide

theorem setST (x : Reg) : Statement (.setST x) :=
  of_row 28 (by decide) fun _ => by revert x; decide

theorem addI (x : Reg) : Statement (.addI x) :=
  of_row 29 (by decide) fun _ => by revert x; decide

theorem ldFont (x : Reg) : Statement (.ldFont x) :=
  of_row 30 (by decide) fun _ => by revert x; decide

theorem storeBcd (x : Reg) : Statement (.storeBcd x) :=
  of_row 31 (by decide) fun _ => by revert x; decide

theorem storeRegs (x : Reg) : Statement (.storeRegs x) :=
  of_row 32 (by decide) fun _ => by revert x; decide

theorem loadRegs (x : Reg) : Statement (.loadRegs x) :=
  of_row 33 (by decide) fun _ => by revert x; decide

end Sys2Proof.Laws.EncodesRow
end

