-- ==== Sys2Proof/Laws/Step.lean ====
section
/-! SUPPORT. What one step can do, by the event that comes next (spec/00_scope.md R5), and the pieces of each event. -/

namespace Sys2Proof.Machine

variable (s : State)

theorem State.nextEvent_nil (h : s.schedule = []) : s.nextEvent = .step := by
  simp [State.nextEvent, h]

theorem State.nextEvent_cons {e : Event} {es : List Event} (h : s.schedule = e :: es) : s.nextEvent = e := by
  simp [State.nextEvent, h]

/-- A step whose next event is a STEP is the STEP of the state with the rest of the schedule. -/
theorem step_of_step (h : s.nextEvent = .step) : step s = s.popEvent.stepEvent := by
  rw [step, h]
  rfl

@[simp] theorem State.popEvent_fetchBytes : s.popEvent.fetchBytes = s.fetchBytes := rfl

/-- With no event scheduled, a step is a STEP. -/
theorem step_of_nil (h : s.schedule = []) : step s = s.stepEvent := by
  have hp : s.popEvent = s := by rw [State.popEvent, h, List.tail_nil, ← h]; rfl
  rw [step, s.nextEvent_nil h, hp]
  rfl

/-- With an event scheduled, a step is that event, in the state that has the rest of the schedule. -/
theorem step_of_cons {e : Event} {es : List Event} (h : s.schedule = e :: es) :
    step s = (s.setSchedule es).event e := by
  rw [step, s.nextEvent_cons h, State.popEvent, h]
  rfl

/-- A run of `k + 1` steps of a machine is one step and a run of `k`. -/
theorem machine_run_succ (M : Host.Core) {s t : M.State} (k : Nat) (h : M.step s = .next t) :
    M.run (k + 1) s = M.run k t := by
  simp only [Host.Core.run, h]

theorem run_succ {s t : State} (k : Nat) (h : step s = .next t) :
    Host.Core.run Sys2Proof.core (k + 1) s = Host.Core.run Sys2Proof.core k t :=
  machine_run_succ Sys2Proof.core k h

/-- An event of a halted core that needs a running one has no transition. -/
theorem State.unlessHalted_halted {c : FaultCause} (h : s.fault = some c)
    (o : Host.Outcome State Fault Refusal) : s.unlessHalted o = .fault (.halted c) := by
  simp [State.unlessHalted, h]

theorem State.unlessHalted_running (h : s.fault = none) (o : Host.Outcome State Fault Refusal) :
    s.unlessHalted o = o := by
  simp [State.unlessHalted, h]

/-- If an event that needs a running core answers a next state, the core was running. -/
theorem State.unlessHalted_next {o : Host.Outcome State Fault Refusal} {t : State} (h : s.unlessHalted o = .next t) :
    s.fault = none ∧ o = .next t := by
  cases hf : s.fault with
  | none => exact ⟨rfl, by rwa [s.unlessHalted_running hf] at h⟩
  | some c => rw [s.unlessHalted_halted hf] at h; cases h

/-- A STEP that answers a next state either ran a decoded instruction on the advanced state or raised InvalidOpcode. -/
theorem State.stepEvent_next {t : State} (h : s.stepEvent = .next t) :
    s.fault = none ∧
      ((∃ i rest, decode s.fetchBytes = .ok (i, rest) ∧ exec i s.advance = .next t) ∨
        ((∃ e, decode s.fetchBytes = .error e) ∧ t = s.advance.raise .invalidOpcode)) := by
  obtain ⟨hf, h⟩ := s.unlessHalted_next h
  refine ⟨hf, ?_⟩
  unfold State.dispatch at h
  split at h
  · next i rest hd => exact .inl ⟨i, rest, hd, h⟩
  · next e hd => exact .inr ⟨⟨e, hd⟩, by simpa using h.symm⟩

/-- A LOAD that answers a next state happened on a running core before the first STEP. -/
theorem State.loadEvent_next {bytes : List Byte} {offset : Nat} {t : State}
    (h : s.loadEvent bytes offset = .next t) :
    s.fault = none ∧ s.started = false ∧ t = s.loadImage bytes offset := by
  obtain ⟨hf, h⟩ := s.unlessHalted_next h
  split at h
  · cases h
  · next hs => exact ⟨hf, by simpa using hs, by simpa using h.symm⟩

/-- LOAD keeps the canonical form of memory. -/
theorem State.loadImage_wf (h : Memory.wf s.mem) (bytes : List Byte) (offset : Nat) :
    Memory.wf (s.loadImage bytes offset).mem := by
  unfold State.loadImage
  split
  · exact h
  · exact State.storeBytes_wf h offset bytes

/-- Everything an event that answers a next state can have done (R5). -/
theorem State.event_next {e : Event} {t : State} (h : s.event e = .next t) :
    (∃ c a, e = .reset c a ∧ t = s.resetEvent c a) ∨
    (∃ bytes offset, e = .load bytes offset ∧ s.fault = none ∧ s.started = false ∧ t = s.loadImage bytes offset) ∨
    (e = .step ∧ s.stepEvent = .next t) ∨
    (e = .tick ∧ s.fault = none ∧ t = s.tickTimers) ∨
    (∃ k p, e = .setKey k p ∧ t = s.setKey k p) ∨
    (e = .takeRender ∧ t = s.setRender false) := by
  cases e with
  | reset c a => exact .inl ⟨c, a, rfl, by simpa [State.event, eq_comm] using h⟩
  | load bytes offset => exact .inr (.inl ⟨bytes, offset, rfl, s.loadEvent_next h⟩)
  | step => exact .inr (.inr (.inl ⟨rfl, h⟩))
  | tick =>
    obtain ⟨hf, h⟩ := s.unlessHalted_next h
    exact .inr (.inr (.inr (.inl ⟨rfl, hf, by simpa using h.symm⟩)))
  | setKey k p =>
    exact .inr (.inr (.inr (.inr (.inl ⟨k, p, rfl, by simpa [State.event, State.setKeyEvent, eq_comm] using h⟩))))
  | takeRender =>
    exact .inr (.inr (.inr (.inr (.inr ⟨rfl, by simpa [State.event, State.takeRender, eq_comm] using h⟩))))

/-- A timer tick: down by one, never below zero (R161). -/
theorem tickDown_toNat (t : Byte) : (tickDown t).toNat = t.toNat - 1 := by
  unfold tickDown
  split
  · omega
  · rw [BitVec.toNat_sub_of_le] <;> simp [BitVec.le_def]; omega

end Sys2Proof.Machine
end

