-- ==== Sys2Proof/Tests/Slice0.lean ====
section
/-! SUPPORT. Small tests, each one step. Expected values are those of spec/95_test_vectors.md: the vector's number stands
in the docstring. Words are written out from the rows of spec/30_encoding.md R64. At the end, for every obligation that
has hypotheses, a concrete state and operands that meet them. -/

namespace Sys2Proof.Tests

open Sys2Proof Sys2Proof.Machine

/-- The next state of an outcome; where there is none, a state no test expects. -/
def got : Host.Outcome State Fault Refusal → State
  | .next t => t
  | .fault _ => State.reset.setPc 0xDEAD
  | .refused _ => State.reset.setPc 0xDEAD

/-- The state after one STEP of the instruction word `w` from `s`. -/
def after (w : Nat) (s : State) : State := got (step (s.withFetchWord 16 w))

/-- The state after reset in these modes. -/
abbrev start (cosmac amiga : Bool) : State := State.resetWith cosmac amiga

/-- Bytes stored from `0x300` on, and `I` there. -/
abbrev data (bs : List Byte) (s : State) : State := (s.storeBytes 0x300 bs).setI 0x300

/-! ### Well-formedness -/

/-- `BNNN` with an `x` that is not the top nibble of `NNN` is no instruction; with it, it is. -/
theorem test_wellFormed_jpOffset : ¬(Instr.jpOffset 0x234 3).WellFormed ∧ (Instr.jpOffset 0x234 2).WellFormed := by decide

/-! ### Decoding: every row's word, bit by bit -/

theorem test_decode_flow :
    decodeTableWord 16 0b0000000011100000 = some .cls ∧
    decodeTableWord 16 0b0000000011101110 = some .ret ∧
    decodeTableWord 16 0b0001101010111100 = some (.jp 0xABC) ∧
    decodeTableWord 16 0b0010000000000001 = some (.call 0x001) ∧
    decodeTableWord 16 0b0011010110100111 = some (.seImm 5 0xA7) ∧
    decodeTableWord 16 0b0100101000000010 = some (.sneImm 10 0x02) ∧
    decodeTableWord 16 0b0101101010110000 = some (.seReg 10 11) ∧
    decodeTableWord 16 0b1001101010110000 = some (.sneReg 10 11) ∧
    decodeTableWord 16 0b1011111111111111 = some (.jpOffset 0xFFF 15) := by decide

theorem test_decode_alu :
    decodeTableWord 16 0b0110000111111110 = some (.ldImm 1 0xFE) ∧
    decodeTableWord 16 0b0111100000000001 = some (.addImm 8 0x01) ∧
    decodeTableWord 16 0b1000000100100000 = some (.ldReg 1 2) ∧
    decodeTableWord 16 0b1000000100100001 = some (.orReg 1 2) ∧
    decodeTableWord 16 0b1000000100100010 = some (.andReg 1 2) ∧
    decodeTableWord 16 0b1000000100100011 = some (.xorReg 1 2) ∧
    decodeTableWord 16 0b1000000100100100 = some (.addReg 1 2) ∧
    decodeTableWord 16 0b1000000100100101 = some (.subReg 1 2) ∧
    decodeTableWord 16 0b1000000100100110 = some (.shr 1 2) ∧
    decodeTableWord 16 0b1000000100100111 = some (.subnReg 1 2) ∧
    decodeTableWord 16 0b1000000100101110 = some (.shl 1 2) ∧
    decodeTableWord 16 0b1100001100001111 = some (.rnd 3 0x0F) := by decide

theorem test_decode_rest :
    decodeTableWord 16 0b1010000100100011 = some (.ldI 0x123) ∧
    decodeTableWord 16 0b1101000100101111 = some (.drw 1 2 15) ∧
    decodeTableWord 16 0b1110001110011110 = some (.skp 3) ∧
    decodeTableWord 16 0b1110001110100001 = some (.sknp 3) ∧
    decodeTableWord 16 0b1111001100000111 = some (.readDT 3) ∧
    decodeTableWord 16 0b1111001100001010 = some (.waitKey 3) ∧
    decodeTableWord 16 0b1111001100010101 = some (.setDT 3) ∧
    decodeTableWord 16 0b1111001100011000 = some (.setST 3) ∧
    decodeTableWord 16 0b1111001100011110 = some (.addI 3) ∧
    decodeTableWord 16 0b1111001100101001 = some (.ldFont 3) ∧
    decodeTableWord 16 0b1111001100110011 = some (.storeBcd 3) ∧
    decodeTableWord 16 0b1111001101010101 = some (.storeRegs 3) ∧
    decodeTableWord 16 0b1111001101100101 = some (.loadRegs 3) := by decide

/-- T3, T4, T5, T7, T8, T9, T10, T12. -/
theorem test_decode_invalid : ∀ w ∈ [0x0000, 0x0123, 0x01E0, 0x00E1, 0x00EF, 0x0EE0, 0x5001, 0x5ABF, 0x9AB1, 0x8AB8, 0x8AB9,
      0x8ABA, 0x8ABB, 0x8ABC, 0x8ABD, 0x8ABF, 0xE39F, 0xE300, 0xE3A0, 0xF300, 0xF375, 0xF385, 0xF3FF, 0xF330, 0xF302],
    decodeTableWord 16 w = none := by decide

/-- The encoder's words for a few operands, from the "Encoding" lines of 41_alu.md and 43_display.md. -/
theorem test_encode : encode (.subnReg 0xA 0xB) = 0x8AB7 ∧ encode (.drw 0xD 0x2 0x5) = 0xDD25 ∧
    encode (.jpOffset 0x234 2) = 0xB234 ∧ encode (.sknp 4) = 0xE4A1 := by decide

/-! ### Fetch -/

/-- T24: the second byte of a fetch at `0xFFF` is at `0x000`. -/
theorem test_fetch_wraps : let t := after 0x6122 (State.reset.setPc 0xFFF)
    t.reg 1 = 0x22 ∧ t.pc = 0x1001 ∧ t.readByte 0xFFF = 0x61 ∧ t.readByte 0x000 = 0x22 := by decide

/-- T21, T25: an odd `pc`, and a `pc` above `0xFFF`. -/
theorem test_fetch_odd_and_high : (after 0x6A55 (State.reset.setPc 0x301)).pc = 0x303 ∧
    (after 0x6133 (State.reset.setPc 0x1000)).pc = 0x1002 ∧ (after 0x6133 (State.reset.setPc 0x1000)).reg 1 = 0x33 := by
  decide

/-! ### Flow -/

/-- T30, T20. -/
theorem test_jp : (after 0x1301 State.reset).pc = 0x301 ∧ (after 0x1234 State.reset).pc = 0x234 := by decide

/-- T33: the 16th push succeeds. -/
theorem test_call : let t := after 0x2ABC ((State.reset.setPc 0x300).setStack State.reset.stack 15)
    t.pc = 0xABC ∧ t.sp = 16 ∧ t.stack[15] = 0x302 ∧ t.fault = none := by decide

/-- T34: the 17th does not. -/
theorem test_call_overflow : let t := after 0x2ABC ((State.reset.setPc 0x300).setStack State.reset.stack 16)
    t.pc = 0x300 ∧ t.sp = 16 ∧ t.stack = State.reset.stack ∧ t.fault = some .stackOverflow := by decide

/-- T35. -/
theorem test_ret : let t := after 0x00EE ((State.reset.setPc 0x212).setStack (State.reset.stack.set 0 0x206) 1)
    t.pc = 0x206 ∧ t.sp = 0 ∧ t.fault = none := by decide

/-- T36. -/
theorem test_ret_underflow : let t := after 0x00EE (State.reset.setPc 0x212)
    t.pc = 0x212 ∧ t.sp = 0 ∧ t.fault = some .stackUnderflow := by decide

/-- T37, T38, T23. -/
theorem test_seImm : (after 0x3100 (State.reset.setPc 0x208)).pc = 0x20C ∧
    (after 0x3100 ((State.reset.setPc 0x208).setReg 1 1)).pc = 0x20A ∧
    (after 0x3000 (State.reset.setPc 0xFFC)).pc = 0x1000 := by decide

/-- T39, T40. -/
theorem test_sneImm : (after 0x4211 ((State.reset.setPc 0x300).setReg 2 0x10)).pc = 0x304 ∧
    (after 0x4211 ((State.reset.setPc 0x300).setReg 2 0x11)).pc = 0x302 := by decide

/-- T41, T42, T45. -/
theorem test_seReg : (after 0x5340 ((State.reset.setReg 3 7).setReg 4 7)).pc = 0x204 ∧
    (after 0x5340 ((State.reset.setReg 3 7).setReg 4 8)).pc = 0x202 ∧ (after 0x5330 State.reset).pc = 0x204 := by decide

/-- T43, T44, T45. -/
theorem test_sneReg : (after 0x9340 ((State.reset.setReg 3 7).setReg 4 8)).pc = 0x204 ∧
    (after 0x9340 ((State.reset.setReg 3 7).setReg 4 7)).pc = 0x202 ∧ (after 0x9330 State.reset).pc = 0x202 := by decide

/-- T46, T47. -/
theorem test_jpOffset : (after 0xB234 (((start false false).setReg 0 0x10).setReg 2 4)).pc = 0x238 ∧
    (after 0xB234 (((start true false).setReg 0 0x10).setReg 2 4)).pc = 0x244 := by decide

/-- T48, T49: the target is masked. -/
theorem test_jpOffset_masked : (after 0xBFFF (((start false false).setReg 0 2).setReg VF 3)).pc = 0x002 ∧
    (after 0xBFFF (((start true false).setReg 0 2).setReg VF 3)).pc = 0x001 := by decide

/-! ### Registers and ALU -/

/-- T60, T61. -/
theorem test_ldImm : (after 0x6A12 State.reset).reg 10 = 0x12 ∧ (after 0x6F00 (State.reset.setReg VF 0x55)).reg VF = 0 := by
  decide

/-- T62, T63. -/
theorem test_addImm : let t := after 0x7101 ((State.reset.setReg 1 0xFF).setReg VF 0x55)
    t.reg 1 = 0 ∧ t.reg VF = 0x55 ∧ (after 0x7F01 (State.reset.setReg VF 0xFF)).reg VF = 0 := by decide

/-- T64. -/
theorem test_ldReg : (after 0x8120 (State.reset.setReg 2 0x9C)).reg 1 = 0x9C := by decide

/-- The operands of T65 to T68. -/
abbrev logicOperands (s : State) : State := ((s.setReg 1 0x0C).setReg 2 0x0A).setReg VF 0x55

/-- T65, T66. -/
theorem test_orReg : let t := after 0x8121 (logicOperands (start false false))
    let u := after 0x8121 (logicOperands (start true false))
    t.reg 1 = 0x0E ∧ t.reg VF = 0x55 ∧ u.reg 1 = 0x0E ∧ u.reg VF = 0 := by decide

/-- T69, T70: `x = F`. -/
theorem test_orReg_flag : (after 0x8F21 (logicOperands (start false false))).reg VF = 0x5F ∧
    (after 0x8F21 (logicOperands (start true false))).reg VF = 0 := by decide

/-- T67. -/
theorem test_andReg : let t := after 0x8122 (logicOperands (start false false))
    let u := after 0x8122 (logicOperands (start true false))
    t.reg 1 = 0x08 ∧ t.reg VF = 0x55 ∧ u.reg 1 = 0x08 ∧ u.reg VF = 0 := by decide

/-- T68. -/
theorem test_xorReg : let t := after 0x8123 (logicOperands (start false false))
    let u := after 0x8123 (logicOperands (start true false))
    t.reg 1 = 0x06 ∧ t.reg VF = 0x55 ∧ u.reg 1 = 0x06 ∧ u.reg VF = 0 := by decide

/-- S4: both of the source's examples. -/
theorem test_addReg : let t := after 0x8124 ((State.reset.setReg 1 0xFF).setReg 2 0x01)
    let u := after 0x8124 (((State.reset.setReg 1 0x01).setReg 2 0x01).setReg VF 0x01)
    t.reg 1 = 0 ∧ t.reg VF = 1 ∧ u.reg 1 = 2 ∧ u.reg VF = 0 := by decide

/-- T72, T73: `x = F` and `y = F`. -/
theorem test_addReg_flag : (after 0x8F24 ((State.reset.setReg VF 0xF0).setReg 2 0x20)).reg VF = 1 ∧
    (after 0x81F4 ((State.reset.setReg 1 0x10).setReg VF 0x03)).reg 1 = 0x13 ∧
    (after 0x81F4 ((State.reset.setReg 1 0x10).setReg VF 0x03)).reg VF = 0 := by decide

/-- S5: both of the source's examples. -/
theorem test_subReg : let t := after 0x8125 ((State.reset.setReg 1 5).setReg 2 3)
    let u := after 0x8125 ((State.reset.setReg 1 3).setReg 2 5)
    t.reg 1 = 2 ∧ t.reg VF = 1 ∧ u.reg 1 = 0xFE ∧ u.reg VF = 0 := by decide

/-- T75, T76: equality, and `x = F`. -/
theorem test_subReg_edges : (after 0x8125 ((State.reset.setReg 1 7).setReg 2 7)).reg VF = 1 ∧
    (after 0x8F25 ((State.reset.setReg VF 3).setReg 2 5)).reg VF = 0 := by decide

/-- T80, T81. -/
theorem test_shr : let t := after 0x8126 (((start false false).setReg 1 5).setReg 2 8)
    let u := after 0x8126 (((start true false).setReg 1 5).setReg 2 8)
    t.reg 1 = 2 ∧ t.reg VF = 1 ∧ u.reg 1 = 4 ∧ u.reg VF = 0 ∧ u.reg 2 = 8 := by decide

/-- T82, T85: `x = F`, and `y = F` in COSMAC mode. -/
theorem test_shr_flag : (after 0x8F26 (((start false false).setReg VF 3).setReg 2 6)).reg VF = 1 ∧
    (after 0x81F6 (((start true false).setReg 1 4).setReg VF 3)).reg 1 = 1 ∧
    (after 0x81F6 (((start true false).setReg 1 4).setReg VF 3)).reg VF = 1 := by decide

/-- T77, T78, T79. -/
theorem test_subnReg : let t := after 0x8127 ((State.reset.setReg 1 3).setReg 2 5)
    let u := after 0x8127 ((State.reset.setReg 1 5).setReg 2 3)
    t.reg 1 = 2 ∧ t.reg VF = 1 ∧ u.reg 1 = 0xFE ∧ u.reg VF = 0 ∧
      (after 0x8127 ((State.reset.setReg 1 9).setReg 2 9)).reg VF = 1 := by decide

/-- T86, T87. -/
theorem test_shl : let t := after 0x812E (((start false false).setReg 1 0x81).setReg 2 0x40)
    let u := after 0x812E (((start true false).setReg 1 0x81).setReg 2 0x40)
    t.reg 1 = 2 ∧ t.reg VF = 1 ∧ u.reg 1 = 0x80 ∧ u.reg VF = 0 := by decide

/-- T88, T89: `x = F`. -/
theorem test_shl_flag : (after 0x8F2E (((start false false).setReg VF 0x81).setReg 2 0x41)).reg VF = 1 ∧
    (after 0x8F2E (((start true false).setReg VF 0x81).setReg 2 0x41)).reg VF = 0 := by decide

/-- T92, and the bits T91's `KK` lacks, whatever the draw. -/
theorem test_rnd : (after 0xC300 (State.reset.setReg 3 9)).reg 3 = Config.randByte 0 &&& 0 ∧
    (after 0xC30F State.reset).reg 3 = Config.randByte 0 &&& 0x0F ∧ (after 0xC30F State.reset).draws = 1 := ⟨rfl, rfl, rfl⟩

/-! ### Index register and memory -/

/-- T100. -/
theorem test_ldI : (after 0xA123 State.reset).I = 0x123 := by decide

/-- T101, T104: no overflow. -/
theorem test_addI : let t := after 0xF11E ((((start false true).setI 0x300).setReg 1 5).setReg VF 1)
    let u := after 0xF11E (((start false true).setI 0xFF0).setReg 1 0x0F)
    t.I = 0x305 ∧ t.reg VF = 1 ∧ u.I = 0xFFF ∧ u.reg VF = 0 := by decide

/-- T102, T103, T105: overflow. -/
theorem test_addI_clamps : let t := after 0xF11E (((start false false).setI 0xFFE).setReg 1 5)
    let u := after 0xF11E (((start false true).setI 0xFF0).setReg 1 0x10)
    t.I = 0xFFF ∧ t.reg VF = 0 ∧ u.I = 0xFFF ∧ u.reg VF = 1 := by decide

/-- T106, T107, T108. -/
theorem test_ldFont : (after 0xFA29 (State.reset.setReg 10 0x03)).I = 0x05F ∧
    (after 0xFA29 (State.reset.setReg 10 0x1A)).I = 0x082 ∧ (after 0xFA29 (State.reset.setReg 10 0xFF)).I = 0x09B := by
  decide

/-- T109. -/
theorem test_storeBcd : let t := after 0xF033 ((State.reset.setI 0x300).setReg 0 0xFE)
    t.readByte 0x300 = 2 ∧ t.readByte 0x301 = 5 ∧ t.readByte 0x302 = 4 ∧ t.I = 0x300 := by decide

/-- T112: the block wraps. -/
theorem test_storeBcd_wraps : let t := after 0xF033 ((State.reset.setI 0xFFE).setReg 0 0xC7)
    t.readByte 0xFFE = 1 ∧ t.readByte 0xFFF = 9 ∧ t.readByte 0x000 = 9 := by decide

/-- The registers of T113. -/
abbrev storeOperands (s : State) : State := (((s.setReg 0 0x11).setReg 1 0x22).setReg 2 0x33).setReg 3 0x44

/-- T113, T114. -/
theorem test_storeRegs : let t := after 0xF255 ((storeOperands (start false false)).setI 0x400)
    let u := after 0xF255 ((storeOperands (start true false)).setI 0x400)
    t.readByte 0x400 = 0x11 ∧ t.readByte 0x401 = 0x22 ∧ t.readByte 0x402 = 0x33 ∧ t.readByte 0x403 = 0 ∧ t.I = 0x400 ∧
      u.I = 0x403 := by decide

/-- T117, T118: the block and `I` wrap. -/
theorem test_storeRegs_wraps : let t := after 0xF155 ((storeOperands (start true false)).setI 0xFFF)
    t.readByte 0xFFF = 0x11 ∧ t.readByte 0x000 = 0x22 ∧ t.I = 0x001 := by decide

/-- T115, T116. -/
theorem test_loadRegs : let t := after 0xF265 (data [2, 5, 4, 9] ((start false false).setReg 3 0x99))
    t.reg 0 = 2 ∧ t.reg 1 = 5 ∧ t.reg 2 = 4 ∧ t.reg 3 = 0x99 ∧ t.I = 0x300 ∧
      (after 0xF265 (data [2, 5, 4, 9] (start true false))).I = 0x303 := by decide

/-- T119: all sixteen, `VF` included. -/
theorem test_loadRegs_all :
    let t := after 0xFF65 (data [1, 2, 3, 4, 5, 6, 7, 8, 9, 10, 11, 12, 13, 14, 15, 16] (start true false))
    t.reg 0 = 1 ∧ t.reg 7 = 8 ∧ t.reg VF = 0x10 ∧ t.I = 0x310 := by decide

/-! ### Display -/

/-- A pixel at column `x` and row `y` lit. -/
abbrev lit (x : Fin 64) (y : Fin 32) (s : State) : State := s.setDisplay (s.display.toggle y x)

/-- T139. -/
theorem test_cls : let t := after 0x00E0 (lit 1 1 (lit 63 31 State.reset))
    t.display = State.reset.display ∧ t.renderPending = true ∧ t.pc = 0x202 := by decide

/-- The sprite and corner of T131. -/
abbrev cornerSprite (s : State) : State := data [0xF0, 0x90] ((s.setReg 0 62).setReg 1 31)

/-- How many pixels are lit. -/
def litCount (s : State) : Nat := (s.display.toList.map fun row => row.toList.countP fun p => p).sum

/-- T131: wrapped at the right and bottom edges. -/
theorem test_drw_wraps : let t := after 0xD012 (cornerSprite (start false false))
    litCount t = 6 ∧ t.display.get 31 62 ∧ t.display.get 31 63 ∧ t.display.get 31 0 ∧ t.display.get 31 1 ∧
      t.display.get 0 62 ∧ t.display.get 0 1 ∧ t.reg VF = 0 := by decide

/-- T132, T134, T137: clipped at the edges, a collision, and `x = F` read before the flag is written. -/
theorem test_drw_clips_collides : let t := after 0xD012 (cornerSprite (start true false))
    let u := after 0xD011 (lit 1 0 (lit 5 5 (data [0xC0] State.reset)))
    let v := after 0xDF11 (data [0x80] ((State.reset.setReg VF 3).setReg 1 2))
    litCount t = 2 ∧ t.display.get 31 62 ∧ t.display.get 31 63 ∧
      litCount u = 2 ∧ u.display.get 0 0 ∧ u.display.get 5 5 ∧ u.reg VF = 1 ∧ u.renderPending = true ∧
      litCount v = 1 ∧ v.display.get 2 3 ∧ v.reg VF = 0 := by decide

/-! ### Keys and timers -/

/-- T150, T151. -/
theorem test_skp : (after 0xE49E ((State.reset.setReg 4 0x25).setKey 5 true)).pc = 0x204 ∧
    (after 0xE49E (State.reset.setReg 4 0x25)).pc = 0x202 := by decide

/-- T152, T153. -/
theorem test_sknp : (after 0xE4A1 (State.reset.setReg 4 5)).pc = 0x204 ∧
    (after 0xE4A1 ((State.reset.setReg 4 5).setKey 5 true)).pc = 0x202 := by decide

/-- T154, T155. -/
theorem test_waitKey : let t := after 0xF10A ((((start false false).setKey 4 true).setKey 9 true).setKey 12 true)
    let u := after 0xF10A ((start false false).setReg 1 0x77)
    t.reg 1 = 4 ∧ t.pc = 0x202 ∧ t.latch = none ∧ u.reg 1 = 0x77 ∧ u.pc = 0x200 := by decide

/-- T156, T157, T158. -/
theorem test_waitKey_cosmac : let t := after 0xF10A (((start true false).setKey 4 true).setKey 9 true)
    let u := after 0xF10A (((start true false).setKey 4 true).setLatch (some 4))
    let v := after 0xF10A ((((start true false).setKey 2 true).setKey 9 true).setLatch (some 4))
    t.latch = some 4 ∧ t.pc = 0x200 ∧ u.latch = some 4 ∧ u.pc = 0x200 ∧ v.reg 1 = 4 ∧ v.latch = none ∧ v.pc = 0x202 := by
  decide

/-- T160, T161, T162. -/
theorem test_timer_copies : (after 0xF207 (State.reset.setDT 6)).reg 2 = 6 ∧ (after 0xF115 (State.reset.setReg 1 7)).DT = 7 ∧
    (after 0xF318 (State.reset.setReg 3 2)).ST = 2 ∧ (after 0xF318 (State.reset.setReg 3 2)).soundActive = true := by decide

/-! ### Events -/

/-- T163, T164. -/
theorem test_tick : let t := got (step (((State.reset.setDT 2).setST 1).setSchedule [.tick]))
    t.DT = 1 ∧ t.ST = 0 ∧ t.soundActive = false ∧ (got (step (State.reset.setSchedule [.tick]))).DT = 0 := by decide

/-- T180, T181: reset memory halts the first STEP, and a halted core has no further STEP. -/
theorem test_reset_memory_faults : (got (step State.reset)).fault = some .invalidOpcode ∧ (got (step State.reset)).pc = 0x200 ∧
    step (got (step State.reset)) = .fault (.halted .invalidOpcode) := ⟨by decide, by decide, rfl⟩

/-- T182: RESET from a halted state. -/
theorem test_reset_event : got (step ((got (step State.reset)).setSchedule [.reset true true])) = start true true := by decide

/-- T184: an image one byte too long writes nothing. -/
theorem test_load_too_large : got (step (State.reset.setSchedule [.load [1, 2] 0xFFF])) =
    State.reset.setFault (some .romTooLarge) := by decide

/-- T166, T167. -/
theorem test_takeRender_setKey : (State.reset.setRender true).takeRender = (true, State.reset) ∧
    State.reset.takeRender = (false, State.reset) ∧
    got (step (State.reset.setSchedule [.setKey 10 true])) = State.reset.setKey 10 true := by decide

/-- S10: an invalid word changes nothing but `fault` and `started`. -/
theorem test_invalid_word : after 0x5001 State.reset =
    ((State.reset.withFetchWord 16 0x5001).setFault (some .invalidOpcode)).setStarted true := by decide

/-! ### Memory -/

/-- The canonical form of reset memory; writing what an unlisted address reads as removes the entry. -/
theorem test_memory_canonical : Memory.wf State.reset.mem ∧
    ((State.reset.writeByte 0x300 5).writeByte 0x2FF 6).mem = [(0x2FF, 6), (0x300, 5)] ∧
    ((State.reset.writeByte 0x300 5).writeByte 0x1300 0).mem = [] := by decide

/-! ### Witnesses: states and operands that meet the hypotheses of each obligation, clause by clause -/

/-- A state whose next event is a STEP of the word `w`. -/
abbrev fed (w : Nat) (s : State) : State := s.withFetchWord 16 w

theorem witness_DecodeOfEncode : (Instr.jpOffset 0xFFF 0xF).WellFormed ∧ (Instr.drw 15 15 15).WellFormed := by decide

theorem witness_EncodeOfDecode : decodeWord 0xBFFF = .ok (.jpOffset 0xFFF 0xF) ∧ decodeWord 0x00E0 = .ok .cls := ⟨rfl, rfl⟩

theorem witness_StepRuns : (fed 0xBFFF State.reset).nextEvent = .step ∧ (fed 0xBFFF State.reset).running ∧
    decode (fed 0xBFFF State.reset).fetchBytes = .ok (.jpOffset 0xFFF 0xF, []) := ⟨rfl, rfl, rfl⟩

/-- The three clauses: reset memory, a call at 16 entries, a return at 0. -/
theorem witness_FaultingStep : State.reset.nextEvent = .step ∧ State.reset.running ∧
    decode State.reset.fetchBytes = .error (.invalidOpcode 0) ∧
    (let s := fed 0x2ABC (State.reset.setStack State.reset.stack 16);
      s.nextEvent = .step ∧ s.running ∧ s.sp.val = 16 ∧ decode s.fetchBytes = .ok (.call 0xABC, [])) ∧
    (let s := fed 0x00EE State.reset;
      s.nextEvent = .step ∧ s.running ∧ s.sp.val = 0 ∧ decode s.fetchBytes = .ok (.ret, [])) :=
  ⟨rfl, rfl, rfl, ⟨rfl, rfl, rfl, rfl⟩, ⟨rfl, rfl, rfl, rfl⟩⟩

/-- One instruction of each clause: each answers a running next state from a running state. -/
theorem witness_PcAfter : (State.reset.setStack State.reset.stack 1).running ∧
    ∀ i ∈ [Instr.ret, .jp 0xFFF, .call 0xFFF, .jpOffset 0xFFF 15, .seImm 0 0, .sneImm 0 0, .seReg 0 0, .sneReg 0 0, .skp 0,
        .sknp 0, .waitKey 0, .cls, .storeRegs 15],
      (match exec i (State.reset.setStack State.reset.stack 1).advance with
        | .next t => decide t.running
        | _ => false) = true := by decide

/-- Also where the word's second byte is at `0x000`. -/
theorem witness_StoredWord : Memory.wf (State.reset.setPc 0xFFF).mem ∧ decodeTableWord 16 0x6122 = some (.ldImm 1 0x22) := by
  decide

/-- At the entry point, and at the last address, where the jump's second byte is at `0x000`. -/
theorem witness_IdleLoop : (fed 0x1200 State.reset).nextEvent = .step ∧ (fed 0x1200 State.reset).running ∧
    (fed 0x1200 State.reset).idle ∧ (fed 0x1FFF (State.reset.setPc 0xFFF)).idle := by decide

theorem witness_HaltedCore : let s := State.reset.setFault (some .romTooLarge)
    s.fault = some .romTooLarge ∧ s.nextEvent = .step ∧ (s.setSchedule [.tick]).nextEvent = .tick ∧
      (s.setSchedule [.load [1] 0x200]).loads := ⟨rfl, rfl, rfl, _, _, rfl⟩

theorem witness_HaltedKeeps : let s := (State.reset.setFault (some .stackOverflow)).setSchedule [.setKey 15 true]
    s.halted ∧ ¬s.resets ∧ step s = .next (got (step s)) :=
  ⟨(nofun), fun ⟨_, _, h⟩ => (nomatch h), rfl⟩

theorem witness_ResetMakes : ((State.reset.setFault (some .invalidOpcode)).setSchedule [.reset true false]).nextEvent =
    .reset true false := rfl

/-- The three clauses, at the boundary: 4096 is the last end that fits. -/
theorem witness_LoadCopies : let s := State.reset.setSchedule [.load [1, 2] 0xFFE]
    let s' := State.reset.setSchedule [.load [1, 2] 0xFFF]
    Memory.wf s.mem ∧ s.nextEvent = .load [1, 2] 0xFFE ∧ s.running ∧ s.started = false ∧ 0xFFE + [1, 2].length ≤ 4096 ∧
      s'.nextEvent = .load [1, 2] 0xFFF ∧ 4096 < 0xFFF + [1, 2].length ∧ (s.setStarted true).started = true := by decide

theorem witness_Boot : (State.reset.setSchedule (bootEvents true true (List.replicate 3584 1))).schedule =
      bootEvents true true (List.replicate 3584 1) ∧ (List.replicate 3584 (1 : Byte)).length ≤ Config.romMax :=
  ⟨rfl, by rw [List.length_replicate]⟩

theorem witness_Ticks : State.reset.running ∧ ((State.reset.setDT 1).setSchedule [.tick, .tick, .step]).schedule =
    List.replicate 2 .tick ++ [.step] := ⟨rfl, rfl⟩

theorem witness_SetKey : (State.reset.setSchedule [.setKey 15 true]).nextEvent = .setKey 15 true ∧ (0 : Key) ≠ 15 ∧
    exec (.waitKey 0) State.reset = .next (got (exec (.waitKey 0) State.reset)) := ⟨rfl, by decide, rfl⟩

theorem witness_TakeRender : ((State.reset.setRender true).setSchedule [.takeRender]).nextEvent = .takeRender := rfl

/-- `I` at its bound, a latched key in COSMAC mode, memory listed. -/
theorem witness_EveryStep : let s := fed 0xF11E (((start true true).setI 0xFFF).setLatch (some 3) |>.setReg 1 0xFF)
    s.I.toNat ≤ 0xFFF ∧ (s.cosmacMode = false → s.latch = none) ∧ Memory.wf s.mem ∧
      (match step s with | .next _ => true | _ => false) = true := by decide

theorem witness_ModesChange : let s := (start true false).setSchedule [.tick]
    step s = .next (got (step s)) ∧ ¬s.resets := ⟨rfl, fun ⟨_, _, h⟩ => (nomatch h)⟩

/-- A clear of a lit display for the first three clauses, TAKE_RENDER for the last. -/
theorem witness_DisplayChanges : let s := fed 0x00E0 (lit 63 31 State.reset)
    let s' := (State.reset.setRender true).setSchedule [.takeRender]
    step s = .next (got (step s)) ∧ (got (step s)).display ≠ s.display ∧ decode s.fetchBytes = .ok (.cls, []) ∧
      (got (step s)).renderPending = true ∧ s.renderPending = false ∧
      step s' = .next (got (step s')) ∧ (got (step s')).renderPending = false ∧ s'.renderPending = true :=
  ⟨rfl, by decide, rfl, rfl, rfl, rfl, rfl, rfl⟩

theorem witness_MemoryChanges : let s := fed 0xF055 ((State.reset.setReg 0 0x12).setI 0xFFF)
    step s = .next (got (step s)) ∧ (got (step s)).readByte 0xFFF ≠ s.readByte 0xFFF := ⟨rfl, by decide⟩

/-- A call at 15 entries and a return at 16. -/
theorem witness_StackChanges : let s := fed 0x2ABC (State.reset.setStack State.reset.stack 15)
    let s' := fed 0x00EE (State.reset.setStack State.reset.stack 16)
    step s = .next (got (step s)) ∧ ¬s.resets ∧ s.sp < (got (step s)).sp ∧ (got (step s)).stack ≠ s.stack ∧
      step s' = .next (got (step s')) ∧ ¬s'.resets ∧ (got (step s')).sp < s'.sp :=
  ⟨rfl, fun ⟨_, _, h⟩ => (nomatch h), by decide, by decide, rfl, fun ⟨_, _, h⟩ => (nomatch h), by decide⟩

/-- One step for each of `I`, `DT`, `ST` and the latch. -/
theorem witness_SpecialRegisters : let s := fed 0xF055 (start true false)
    let s1 := fed 0xF115 (State.reset.setReg 1 7)
    let s2 := ((start true true).setST 1).setSchedule [.tick]
    let s3 := fed 0xF10A ((start true false).setKey 15 true)
    (got (step s)).I ≠ s.I ∧ (got (step s1)).DT ≠ s1.DT ∧ (got (step s2)).ST ≠ s2.ST ∧ (got (step s3)).latch ≠ s3.latch ∧
      ∀ u ∈ [s, s1, s2, s3], (match step u with | .next _ => true | _ => false) = true := by decide

theorem witness_FlagChanges : let s := fed 0x8124 ((State.reset.setReg 1 0xFF).setReg 2 1)
    let s' := fed 0xF11E (((start false true).setI 0xFFF).setReg 1 1)
    step s = .next (got (step s)) ∧ (got (step s)).reg VF ≠ s.reg VF ∧
      step s' = .next (got (step s')) ∧ (got (step s')).reg VF ≠ s'.reg VF := ⟨rfl, by decide, rfl, by decide⟩

/-- One step for each cause. -/
theorem witness_OnlyFourCauses : let s := fed 0x2ABC (State.reset.setStack State.reset.stack 16)
    let s' := State.reset.setSchedule [.load [1] 0x1000]
    (got (step State.reset)).fault = some .invalidOpcode ∧ (got (step s)).fault = some .stackOverflow ∧
      (got (step (fed 0x00EE State.reset))).fault = some .stackUnderflow ∧ (got (step s')).fault = some .romTooLarge ∧
      ∀ u ∈ [State.reset, s, fed 0x00EE State.reset, s'],
        (match step u with | .next _ => decide u.running | _ => false) = true := by decide

/-- For SoundTimerAndDisplayAreNotRead. -/
theorem witness_DisplayNotRead : ∀ (x y : Reg) (n : Fin 16), Instr.waitKey 3 ≠ .drw x y n := nofun

theorem witness_ModesRead : (∀ x y, Instr.cls ≠ .orReg x y ∧ Instr.cls ≠ .andReg x y ∧ Instr.cls ≠ .xorReg x y ∧
      Instr.cls ≠ .shr x y ∧ Instr.cls ≠ .shl x y) ∧ (∀ nnn x, Instr.cls ≠ .jpOffset nnn x) ∧
    (∀ x y n, Instr.cls ≠ .drw x y n) ∧
    (∀ x, Instr.cls ≠ .storeRegs x ∧ Instr.cls ≠ .loadRegs x ∧ Instr.cls ≠ .waitKey x) ∧ ∀ x, Instr.cls ≠ .addI x :=
  ⟨fun _ _ => ⟨nofun, nofun, nofun, nofun, nofun⟩, nofun, nofun, fun _ => ⟨nofun, nofun, nofun⟩, nofun⟩

/-- Two stacks that differ in the entry at `sp` alone. -/
theorem witness_StaleStack : let s := State.reset.setStack State.reset.stack 1
    (∀ k (h : k < 16), k < s.sp.val → (s.stack.set 1 0x777)[k] = s.stack[k]) ∧ s.stack.set 1 0x777 ≠ s.stack := by
  refine ⟨fun k h hk => ?_, by decide⟩
  have hk : k < 1 := hk
  obtain rfl : k = 0 := by omega
  rfl

theorem witness_CallPushes : (State.reset.setStack State.reset.stack 15).sp.val < 16 := by decide

theorem witness_ReturnPops : 0 < (State.reset.setStack State.reset.stack 16).sp.val ∧
    0 < (State.reset.setStack State.reset.stack 1).sp.val := by decide

theorem witness_ReturnGoesBack : State.reset.sp.val < 16 ∧ ∀ t, exec (.call 0x300) State.reset = .next t →
    (got (exec (.call 0x300) State.reset)).stack = t.stack ∧ (got (exec (.call 0x300) State.reset)).sp = t.sp := by
  refine ⟨by decide, fun t h => ?_⟩
  rw [h]
  exact ⟨rfl, rfl⟩

theorem witness_RegisterSkips : (0x5001 : Word).toNat / 4096 = 5 ∧ (0x5001 : Word).toNat % 16 ≠ 0 ∧
    (0x9FFF : Word).toNat / 4096 = 9 ∧ (0x9FFF : Word).toNat % 16 ≠ 0 := by decide

theorem witness_OffsetJump : (start true false).cosmacMode = true ∧ (start false true).cosmacMode = false := ⟨rfl, rfl⟩

/-- The three instructions, both modes and a destination that is not `VF`; `x = VF` is not shut out. -/
theorem witness_Logic : (Instr.orReg 1 2 = .orReg 1 2 ∧ or = or ∧ 0x8001 = 0x8001) ∧
    (Instr.andReg VF 2 = .andReg VF 2 ∧ and = and ∧ 0x8002 = 0x8002) ∧
    (Instr.xorReg 1 VF = .xorReg 1 VF ∧ xor = xor ∧ 0x8003 = 0x8003) ∧ (1 : Reg) ≠ VF ∧
    ¬((VF : Reg) = VF ∧ (start false false).cosmacMode = true) := by
  refine ⟨⟨rfl, rfl, rfl⟩, ⟨rfl, rfl, rfl⟩, ⟨rfl, rfl, rfl⟩, by decide, by decide⟩

/-- For AddSetsCarry, SubtractsSetNotBorrow and ShiftsPutTheBitOutIntoFlag. -/
theorem witness_AddSubShift : (14 : Reg) ≠ VF ∧
    (0x80 : Byte) = (if (State.reset.setReg 1 0x80).cosmacMode then (State.reset.setReg 1 0x80).reg 2
      else (State.reset.setReg 1 0x80).reg 1) := by decide

/-- A sum just above `0xFFF` in Amiga mode, and one that is `0xFFF`. -/
theorem witness_AddToIndex : let s := ((start false true).setI 0xFF0).setReg 1 0x10
    let s' := ((start false true).setI 0xFF0).setReg 1 0x0F
    (s.amigaMode = true ∧ 0xFFF < s.I.toNat + (s.reg 1).toNat) ∧
      ¬(s'.amigaMode = true ∧ 0xFFF < s'.I.toNat + (s'.reg 1).toNat) := by decide

/-- For BcdStoresThreeDigits, StoreRegistersWritesTheBlock and LoadRegistersReadsTheBlock: memory with the last address
listed, the last register inside the block and one outside. -/
theorem witness_Stores : Memory.wf ((State.reset.writeByte 0xFFF 7).setI 0xFFF).mem ∧ ((15 : Reg) ≤ 15 ∧ (0 : Reg) < 1) := by
  decide

theorem witness_LoadAfterStore : ∃ s t u : State, Memory.wf s.mem ∧ exec (.storeRegs 15) s = .next t ∧ u.mem = t.mem ∧
    u.I = s.I := by
  have answers : ∀ s, ∃ t, exec (.storeRegs 15) s = .next t := fun _ => ⟨_, rfl⟩
  obtain ⟨t, ht⟩ := answers (State.reset.setI 0xFFF)
  exact ⟨State.reset.setI 0xFFF, t, t.setI 0xFFF, by decide, ht, rfl, rfl⟩

theorem witness_Draw : 6 = ((State.reset.setReg 0 70).reg 0).toNat % 64 ∧ 1 = ((State.reset.setReg 1 33).reg 1).toNat % 32 := by
  decide

theorem witness_DrawingTwice : let s := data [0x80] State.reset
    let t := got (exec (.drw 0 14 15) s)
    (0 : Reg) ≠ VF ∧ (14 : Reg) ≠ VF ∧ exec (.drw 0 14 15) s = .next t ∧
      exec (.drw 0 14 15) t = .next (got (exec (.drw 0 14 15) t)) := ⟨by decide, by decide, rfl, rfl⟩

theorem witness_KeySkips : (15 : Key).val = ((State.reset.setReg 4 0xFF).reg 4).toNat % 16 := by decide

/-- The highest key alone is the lowest pressed; and no key. -/
theorem witness_KeyWait : (start false true).cosmacMode = false ∧ ((start false true).setKey 15 true).key 15 = true ∧
    (∀ j < 15, ((start false true).setKey 15 true).key j = false) ∧ ∀ k, (start false true).key k = false := by decide

/-- The four clauses. -/
theorem witness_CosmacKeyWait : let s := start true false
    s.cosmacMode = true ∧ s.latch = none ∧ (∀ k, s.key k = false) ∧
      (s.setKey 15 true).key 15 = true ∧ (∀ j < 15, (s.setKey 15 true).key j = false) ∧
      ((s.setKey 15 true).setLatch (some 15)).latch = some 15 ∧ ((s.setKey 15 true).setLatch (some 15)).key 15 = true ∧
      ((s.setKey 15 true).setLatch (some 0)).latch = some 0 ∧ ((s.setKey 15 true).setLatch (some 0)).key 0 = false := by
  decide

end Sys2Proof.Tests
end

section
/-! PROOFS. The fetch (spec/20_memory.md R44): the two bytes of an opcode are the halves of its word, and decoding them is
decoding that word. -/

namespace Sys2Proof.Machine

/-- The first byte is the high half of the opcode (R44). -/
@[simp] theorem wordOfBytes_high (b0 b1 : Byte) : (wordOfBytes b0 b1).extractLsb' 8 8 = b0 :=
  BitVec.extractLsb'_append_eq_left

/-- The second byte is the low half of the opcode (R44). -/
@[simp] theorem wordOfBytes_low (b0 b1 : Byte) : (wordOfBytes b0 b1).extractLsb' 0 8 = b1 :=
  BitVec.extractLsb'_append_eq_right

/-- Memory holds the opcode of two bytes as those bytes, the other direction of `wordOfBytes_split`. -/
@[simp] theorem bytesOfWord_wordOfBytes (b0 b1 : Byte) : bytesOfWord (wordOfBytes b0 b1) = [b0, b1] := by
  simp [bytesOfWord]

/-- Two bytes decode to an instruction, with nothing left over, exactly when their opcode does. -/
theorem decode_pair_eq_ok_iff (b0 b1 : Byte) (i : Instr) :
    decode [b0, b1] = .ok (i, []) ↔ decodeWord (wordOfBytes b0 b1) = .ok i := by
  have h : decode [b0, b1] = (decodeWord (wordOfBytes b0 b1)).map (·, []) := by
    simpa using decode_bytesOfWord (wordOfBytes b0 b1) []
  rw [h]
  cases decodeWord (wordOfBytes b0 b1) <;> simp [Except.map]

/-- The 16-bit wrap of `pc + 1` does not change the byte fetched: an access keeps only the low 12 bits (R43, R66). -/
theorem State.readByte_word_succ (s : State) (w : Word) : s.readByte (w + 1).toNat = s.readByte (w.toNat + 1) := by
  have h : trunc12 (w + 1).toNat = trunc12 (w.toNat + 1) := by
    have one : (1 : Word).toNat = 1 := rfl
    simp only [trunc12, Config.memSize, BitVec.toNat_add, one]
    omega
  rw [State.readByte, State.readByte, h]

/-- Settles O5: the second address agrees after the 12-bit truncation, and the halves of the opcode are the two bytes. -/
theorem fetchIsBigEndian : Obligations.FetchIsBigEndian := fun s =>
  ⟨s.readByte s.pc.toNat, s.readByte (s.pc + 1).toNat, rfl, rfl, s.readByte_word_succ s.pc, wordOfBytes_high _ _,
    wordOfBytes_low _ _, wordOfBytes_toNat _ _, fun i => (decode_pair_eq_ok_iff _ _ i).symm⟩

end Sys2Proof.Machine
end

section
/-! PROOFS. The number an encoder format writes (spec/30_encoding.md R62) as the sum of its parts, and what a row of the
opcode map says of the words that hit it (R64). -/

namespace Sys2Proof

/-- Words on the two sides of a mask have no bit in common, so putting them together is adding them. -/
theorem toNat_or_of_mask {a b m : Word} (ha : a &&& m = a) (hb : b &&& m = 0) :
    (a ||| b).toNat = a.toNat + b.toNat := by
  have disjoint : a &&& b = 0 := by rw [← ha, BitVec.and_assoc, BitVec.and_comm m, hb]; exact BitVec.and_zero
  rw [← BitVec.add_eq_or_of_and_eq_zero _ _ disjoint, BitVec.toNat_add_of_and_eq_zero disjoint]

theorem encodeNNN_toNat {p : Word} (hp : p &&& 0xF000 = p) (nnn : Addr) :
    (encodeNNN p nnn).toNat = p.toNat + nnn.toNat := by
  rw [encodeNNN, toNat_or_of_mask hp (setWidth_addr nnn).1, BitVec.toNat_setWidth_of_le (by decide)]

/-- A nibble placed at bit 8: its number, and that it leaves the low byte free. -/
theorem nibbleAt_eight_toNat (x : Fin 16) :
    (nibbleAt x 8).toNat = x.val * 256 ∧ nibbleAt x 8 &&& 0xFF00 = nibbleAt x 8 := by
  revert x; decide

/-- An immediate byte stands in the low byte. -/
theorem setWidth_byte_high (kk : Byte) : kk.setWidth 16 &&& (0xFF00 : Word) = 0 := by
  revert kk; decide

theorem encodeXKK_toNat {p : Word} (hp : p &&& 0xF000 = p) (x : Reg) (kk : Byte) :
    (encodeXKK p x kk).toNat = p.toNat + x.val * 256 + kk.toNat := by
  obtain ⟨hx, hxHigh⟩ := nibbleAt_eight_toNat x
  have hpHigh : p &&& 0xFF00 = p := by rw [← hp, BitVec.and_assoc]; rfl
  have high : (p ||| nibbleAt x 8) &&& 0xFF00 = p ||| nibbleAt x 8 := by
    rw [BitVec.and_comm, BitVec.and_or_distrib_left, BitVec.and_comm _ p, hpHigh, BitVec.and_comm, hxHigh]
  rw [encodeXKK, toNat_or_of_mask high (setWidth_byte_high kk), toNat_or_of_mask hp (nibbleAt_eight x).1, hx,
    BitVec.toNat_setWidth_of_le (by decide)]

/-- The two register fields of the format XY: their number, and that they leave the opcode's own nibbles free. -/
theorem nibbleAt_pair (x y : Fin 16) : (nibbleAt x 8 ||| nibbleAt y 4).toNat = x.val * 256 + y.val * 16 ∧
    (nibbleAt x 8 ||| nibbleAt y 4) &&& 0xF00F = 0 := by
  revert x y; decide

theorem encodeXY_toNat {p : Word} (hp : p &&& 0xF00F = p) (x y : Reg) :
    (encodeXY p x y).toNat = p.toNat + x.val * 256 + y.val * 16 := by
  obtain ⟨hxy, free⟩ := nibbleAt_pair x y
  rw [encodeXY, BitVec.or_assoc, toNat_or_of_mask hp free, hxy, Nat.add_assoc]

/-- Every row of the map fixes the top nibble. -/
theorem opcodeTable_mask_top : ∀ r ∈ opcodeTable, r.mask &&& 0xF000 = 0xF000 := by decide

/-- A word has the top nibble of the row it hits. -/
theorem OpcodeRow.top_eq_of_hits {r : OpcodeRow} (hr : r ∈ opcodeTable) {op : Word} (h : r.hits op = true) :
    op.toNat / 4096 = r.pattern.toNat / 4096 := by
  have masked : op &&& 0xF000 = r.pattern &&& 0xF000 := by
    rw [← OpcodeRow.hits_iff.1 h, BitVec.and_assoc, opcodeTable_mask_top r hr]
  have number := congrArg BitVec.toNat masked
  rw [mask_F000, mask_F000] at number
  omega

/-- The rows with top nibble 5 or 9 fix the low nibble too, and fix it to 0 (R85, R86). -/
theorem opcodeTable_5_9 : ∀ r ∈ opcodeTable, r.pattern.toNat / 4096 = 5 ∨ r.pattern.toNat / 4096 = 9 →
    r.mask = 0xF00F ∧ r.pattern.toNat % 16 = 0 := by decide

/-- `5XYn` and `9XYn` that decode have `n = 0`. -/
theorem lowNibble_eq_zero_of_hits_5_9 {r : OpcodeRow} (hr : r ∈ opcodeTable) {op : Word} (h : r.hits op = true)
    (top : op.toNat / 4096 = 5 ∨ op.toNat / 4096 = 9) : op.toNat % 16 = 0 := by
  rw [OpcodeRow.top_eq_of_hits hr h] at top
  obtain ⟨mask, low⟩ := opcodeTable_5_9 r hr top
  have number := congrArg BitVec.toNat (OpcodeRow.hits_iff.1 h)
  rw [mask, mask_F00F] at number
  omega

/-- A word that hits no row is an invalid opcode (R65): the converse of `decodeWord_error`. -/
theorem decodeWord_eq_error_of_no_hit {op : Word} (h : ∀ r ∈ opcodeTable, r.hits op ≠ true) :
    decodeWord op = .error (.invalidOpcode op) := by
  cases hd : decodeWord op with
  | error e => rw [(decodeWord_error hd).1]
  | ok i =>
    obtain ⟨r, hr, hit, -⟩ := decodeWord_ok hd
    exact absurd hit (h r hr)

/-- `5XYn` and `9XYn` with `n` not 0 are no instructions (R65). -/
theorem decodeWord_5_9_invalid (op : Word) (top : op.toNat / 4096 = 5 ∨ op.toNat / 4096 = 9)
    (low : op.toNat % 16 ≠ 0) : decodeWord op = .error (.invalidOpcode op) :=
  decodeWord_eq_error_of_no_hit fun _ hr h => low (lowNibble_eq_zero_of_hits_5_9 hr h top)

end Sys2Proof
end

section
/-! PROOFS. The control transfers (spec/40_flow.md): the jump and the four register skips. -/

namespace Sys2Proof.Machine

/-- A skip on equal bytes, by their unsigned values (R83, R85). -/
theorem State.skipIf_beq (s : State) (a b : Byte) :
    s.skipIf (a == b) = if a.toNat = b.toNat then s.skip else s := by
  simp only [State.skipIf, beq_iff_eq, BitVec.toNat_inj]

/-- A skip on different bytes, by their unsigned values (R84, R86). -/
theorem State.skipIf_bne (s : State) (a b : Byte) :
    s.skipIf (a != b) = if a.toNat = b.toNat then s else s.skip := by
  simp only [State.skipIf, bne_iff_ne, ne_eq, ite_not, BitVec.toNat_inj]

/-- Settles O36: each encoding is the sum of its fields, each skip is under its comparison of unsigned bytes, and no row
of the map has the words left over. -/
theorem registerSkipsFollowTheirComparison : Obligations.RegisterSkipsFollowTheirComparison := by
  refine ⟨fun x kk s => ⟨encodeXKK_toNat (by decide) x kk, encodeXKK_toNat (by decide) x kk, ?_, ?_⟩,
    fun x y s => ⟨encodeXY_toNat (by decide) x y, encodeXY_toNat (by decide) x y, ?_, ?_⟩, decodeWord_5_9_invalid⟩
  · rw [exec_seImm, State.skipIf_beq]
  · rw [exec_sneImm, State.skipIf_bne]
  · rw [exec_seReg, State.skipIf_beq]
  · rw [exec_sneReg, State.skipIf_bne]

/-- Settles O32: the jump is a change of `pc` alone, to a value that does not depend on the state, so a second jump
changes nothing (R81). -/
theorem jumpPutsItsAddressInPc : Obligations.JumpPutsItsAddressInPc := fun nnn s =>
  ⟨encodeNNN_toNat (by decide) nnn, s.setPc (nnn.setWidth 16), exec_jp s nnn,
    BitVec.toNat_setWidth_of_le (by decide), rfl, s.setPc_readByte _, exec_jp _ nnn⟩

end Sys2Proof.Machine
end

section
/-! PROOFS. The registers and the ALU (spec/41_alu.md): what the three register updates leave, and the instructions
built from them. -/

namespace Sys2Proof.Machine

/-- A register write: its register holds the value and nothing else changes (R10). -/
theorem State.setReg_writes_only (s : State) (x : Reg) (v : Byte) :
    (s.setReg x v).reg x = v ∧ s.regsUnchangedBut (s.setReg x v) [x] ∧ s.setReg x v = { s with V := (s.setReg x v).V } ∧
      s.bytesUnchanged (s.setReg x v) :=
  ⟨by rw [s.setReg_reg, if_pos rfl], fun q hq => by rw [s.setReg_reg, if_neg (List.ne_of_not_mem_cons hq)], rfl,
    s.setReg_readByte x v⟩

/-- A result and a flag, by the numbers they stand for: the result is lost only in `VF`, where the flag wins, and nothing
else changes (R113). -/
theorem State.setResultFlag_writes_only (s : State) (x : Reg) {r f : Byte} {n m : Nat} (hr : r.toNat = n)
    (hf : f.toNat = m) :
    let t := s.setResultFlag x r f
    (x ≠ VF → (t.reg x).toNat = n) ∧ (t.reg VF).toNat = m ∧ s.regsUnchangedBut t [x, VF] ∧ t = { s with V := t.V } ∧
      s.bytesUnchanged t := by
  refine ⟨fun hx => ?_, ?_, fun q hq => ?_, s.setResultFlag_eq x r f, s.setResultFlag_readByte x r f⟩
  · rw [s.setResultFlag_reg, if_neg hx, if_pos rfl, hr]
  · rw [s.setResultFlag_reg, if_pos rfl, hf]
  · obtain ⟨hx, hVF⟩ : q ≠ x ∧ q ≠ VF := by simpa using hq
    rw [s.setResultFlag_reg, if_neg hVF, if_neg hx]

/-- A logic result, by its bits: lost only in `VF` in COSMAC mode, which alone clears `VF`, and nothing else changes
(R103, R104, R105). -/
theorem State.setLogic_writes_only (s : State) (x : Reg) {r : Byte} {bit : Nat → Bool}
    (hr : ∀ k < 8, r.getLsbD k = bit k) :
    let t := s.setLogic x r
    (¬(x = VF ∧ s.cosmacMode = true) → ∀ k < 8, (t.reg x).getLsbD k = bit k) ∧
      (s.cosmacMode = true → t.reg VF = 0) ∧ (s.cosmacMode = false → x ≠ VF → t.reg VF = s.reg VF) ∧
      s.regsUnchangedBut t [x, VF] ∧ t = { s with V := t.V } ∧ s.bytesUnchanged t := by
  refine ⟨fun kept => ?_, fun cosmac => ?_, fun plain hx => ?_, fun q hq => ?_, s.setLogic_eq x r,
    s.setLogic_readByte x r⟩
  · rw [s.setLogic_reg, if_neg kept, if_pos rfl]
    exact hr
  · rw [s.setLogic_reg, if_pos ⟨rfl, cosmac⟩]
  · rw [s.setLogic_reg, if_neg (by simp [plain]), if_neg hx.symm]
  · obtain ⟨hx, hVF⟩ : q ≠ x ∧ q ≠ VF := by simpa using hq
    rw [s.setLogic_reg, if_neg fun h => hVF h.1, if_neg hx]

/-- The difference of two bytes modulo 256, with no number below 0 on the way (R107, R109). -/
theorem byte_sub_toNat (a b : Byte) : (a - b).toNat = (a.toNat + 256 - b.toNat) % 256 := by
  have hb : b.toNat < 256 := b.isLt
  rw [BitVec.toNat_sub]
  omega

/-- Settles O39: each load is one register write. -/
theorem loadsWriteTheirRegister : Obligations.LoadsWriteTheirRegister :=
  ⟨fun x kk s => ⟨encodeXKK_toNat (by decide) x kk, _, exec_ldImm s x kk, s.setReg_writes_only x kk⟩,
    fun x y s => ⟨encodeXY_toNat (by decide) x y, _, exec_ldReg s x y, s.setReg_writes_only x (s.reg y)⟩⟩

/-- Settles O40: the addition is one register write, so `VF` is written only as the destination. -/
theorem addImmediateWrapsWithoutFlag : Obligations.AddImmediateWrapsWithoutFlag := by
  intro x kk s
  obtain ⟨written, frame⟩ := s.setReg_writes_only x (s.reg x + kk)
  have sum : ((s.setReg x (s.reg x + kk)).reg x).toNat = ((s.reg x).toNat + kk.toNat) % 256 := by
    rw [written, BitVec.toNat_add]
  exact ⟨encodeXKK_toNat (by decide) x kk, _, exec_addImm s x kk, sum, frame⟩

/-- Settles O41: the three instructions are one logic update, of the OR, the AND and the XOR of the registers. -/
theorem logicClearsFlagInCosmacMode : Obligations.LogicClearsFlagInCosmacMode := by
  rintro x y s i f pattern (⟨rfl, rfl, rfl⟩ | ⟨rfl, rfl, rfl⟩ | ⟨rfl, rfl, rfl⟩)
  · exact ⟨encodeXY_toNat (by decide) x y, _, exec_orReg s x y, s.setLogic_writes_only x fun _ _ => BitVec.getLsbD_or⟩
  · exact ⟨encodeXY_toNat (by decide) x y, _, exec_andReg s x y, s.setLogic_writes_only x fun _ _ => BitVec.getLsbD_and⟩
  · exact ⟨encodeXY_toNat (by decide) x y, _, exec_xorReg s x y, s.setLogic_writes_only x fun _ _ => BitVec.getLsbD_xor⟩

/-- Settles O42: the sum of the old registers is the result, and the carry of their exact sum the flag. -/
theorem addSetsCarry : Obligations.AddSetsCarry := fun x y s =>
  ⟨encodeXY_toNat (by decide) x y, _, exec_addReg s x y,
    s.setResultFlag_writes_only x (BitVec.toNat_add _ _) (carryFlag_toNat _ _)⟩

/-- Settles O43: the two subtractions differ only in which register is the minuend. -/
theorem subtractsSetNotBorrow : Obligations.SubtractsSetNotBorrow := fun x y s =>
  ⟨encodeXY_toNat (by decide) x y, encodeXY_toNat (by decide) x y,
    ⟨_, exec_subReg s x y, s.setResultFlag_writes_only x (byte_sub_toNat _ _) (noBorrowFlag_toNat _ _)⟩,
    ⟨_, exec_subnReg s x y, s.setResultFlag_writes_only x (byte_sub_toNat _ _) (noBorrowFlag_toNat _ _)⟩⟩

end Sys2Proof.Machine
end

section
/-! PROOFS. The index register and memory (spec/42_index_memory.md). -/

namespace Sys2Proof.Machine

/-- Settles O46: the load is one write of `I`, and widening the 12-bit address to 16 bits keeps its number (R120). -/
theorem loadIndexPutsItsAddressInI : Obligations.LoadIndexPutsItsAddressInI := fun nnn s =>
  ⟨encodeNNN_toNat (by decide) nnn, s.setI (nnn.setWidth 16), exec_ldI s nnn,
    BitVec.toNat_setWidth_of_le (by decide), rfl, s.setI_readByte _⟩

end Sys2Proof.Machine
end

section
/-! PROOFS. The keypad (spec/44_keys_timers.md): the two key skips, and the number of the encoder
format X (spec/30_encoding.md R62) they are written in. -/

namespace Sys2Proof

/-- The register field of the format X: it leaves every nibble the opcode fixes free (R62). -/
theorem nibbleAt_eight_free (x : Fin 16) : nibbleAt x 8 &&& 0xF0FF = 0 := by
  revert x; decide

theorem encodeX_toNat {p : Word} (hp : p &&& 0xF0FF = p) (x : Reg) :
    (encodeX p x).toNat = p.toNat + x.val * 256 := by
  rw [encodeX, toNat_or_of_mask hp (nibbleAt_eight_free x), (nibbleAt_eight_toNat x).1]

end Sys2Proof

namespace Sys2Proof.Machine

/-- The key a byte selects is the one with the number of its low nibble (R140). -/
theorem lowNibble_eq_of_val {v : Byte} {k : Key} (hk : k.val = v.toNat % 16) : lowNibble v = k :=
  Fin.ext hk.symm

/-- A skip on the contrary of a condition (R141). -/
theorem State.skipIf_not (s : State) (c : Bool) : s.skipIf (!c) = if c = true then s else s.skip := by
  cases c <;> rfl

/-- Settles O56: both instructions test the key of the low nibble, and EXA1 skips on the contrary of EX9E's condition. -/
theorem keySkipsTestTheLowNibbleKey : Obligations.KeySkipsTestTheLowNibbleKey := by
  intro x s k hk
  have selected : lowNibble (s.reg x) = k := lowNibble_eq_of_val hk
  refine ⟨encodeX_toNat (by decide) x, encodeX_toNat (by decide) x, ?_, ?_⟩
  · rw [exec_skp, selected, State.skipIf]
  · rw [exec_sknp, selected, State.skipIf_not]

end Sys2Proof.Machine
end

section
/-! PROOFS. The keypad as the host writes it (spec/60_exceptions.md R163): the SET_KEY event, and that the core only reads
`keys`. -/

namespace Sys2Proof.Machine

/-- A step whose next event is a SET_KEY writes that key and takes the event off the schedule; no fault is asked about. -/
theorem step_of_setKey {s : State} {k : Key} {p : Bool} (h : s.nextEvent = .setKey k p) :
    step s = .next (s.popEvent.setKey k p) := by
  rw [step, h]
  rfl

/-- No instruction writes `keys`: a call or a return, faulting or not, changes the stack, `pc` and `fault`, and every
other instruction is made of operations that keep `keys` (R163). -/
theorem exec_keys {i : Instr} {s t : State} (h : exec i s = .next t) : t.keys = s.keys := by
  cases i with
  | call nnn => obtain ⟨-, rfl⟩ | ⟨lt, rfl⟩ := exec_call_cases s h <;> simp
  | ret => obtain ⟨-, rfl⟩ | ⟨pos, lt, rfl⟩ := exec_ret_cases s h <;> simp
  | _ =>
    obtain rfl := Host.Outcome.next.inj h
    simp

/-- Settles O17: the new state is the old one with one key set and the event taken, and the core never writes `keys`. -/
theorem setKeySetsOneKey : Obligations.SetKeySetsOneKey := by
  refine ⟨fun s k p h => ⟨s.popEvent.setKey k p, step_of_setKey h, ?_, fun j hj => ?_, rfl⟩, fun _ _ _ => exec_keys⟩
  · rw [State.setKey_key, if_pos rfl]
  · rw [State.setKey_key, if_neg hj, State.popEvent, State.setSchedule_key]

end Sys2Proof.Machine
end

section
/-! PROOFS. The decoder and the encoder as inverses of each other (spec/30_encoding.md): decoding an encoded
instruction, encoding a decoded word, and the words no row of the map hits. -/

namespace Sys2Proof

/-- The word of every well-formed instruction hits the row that reads the instruction back: the family EncodesRow, put
together over the constructors. -/
theorem encode_hits_row (i : Instr) : Laws.EncodesRow.Statement i := by
  cases i with
  | cls => exact Laws.EncodesRow.cls
  | ret => exact Laws.EncodesRow.ret
  | jp nnn => exact Laws.EncodesRow.jp nnn
  | call nnn => exact Laws.EncodesRow.call nnn
  | seImm x kk => exact Laws.EncodesRow.seImm x kk
  | sneImm x kk => exact Laws.EncodesRow.sneImm x kk
  | seReg x y => exact Laws.EncodesRow.seReg x y
  | ldImm x kk => exact Laws.EncodesRow.ldImm x kk
  | addImm x kk => exact Laws.EncodesRow.addImm x kk
  | ldReg x y => exact Laws.EncodesRow.ldReg x y
  | orReg x y => exact Laws.EncodesRow.orReg x y
  | andReg x y => exact Laws.EncodesRow.andReg x y
  | xorReg x y => exact Laws.EncodesRow.xorReg x y
  | addReg x y => exact Laws.EncodesRow.addReg x y
  | subReg x y => exact Laws.EncodesRow.subReg x y
  | shr x y => exact Laws.EncodesRow.shr x y
  | subnReg x y => exact Laws.EncodesRow.subnReg x y
  | shl x y => exact Laws.EncodesRow.shl x y
  | sneReg x y => exact Laws.EncodesRow.sneReg x y
  | ldI nnn => exact Laws.EncodesRow.ldI nnn
  | jpOffset nnn x => exact Laws.EncodesRow.jpOffset nnn x
  | rnd x kk => exact Laws.EncodesRow.rnd x kk
  | drw x y n => exact Laws.EncodesRow.drw x y n
  | skp x => exact Laws.EncodesRow.skp x
  | sknp x => exact Laws.EncodesRow.sknp x
  | readDT x => exact Laws.EncodesRow.readDT x
  | waitKey x => exact Laws.EncodesRow.waitKey x
  | setDT x => exact Laws.EncodesRow.setDT x
  | setST x => exact Laws.EncodesRow.setST x
  | addI x => exact Laws.EncodesRow.addI x
  | ldFont x => exact Laws.EncodesRow.ldFont x
  | storeBcd x => exact Laws.EncodesRow.storeBcd x
  | storeRegs x => exact Laws.EncodesRow.storeRegs x
  | loadRegs x => exact Laws.EncodesRow.loadRegs x

theorem decodeWord_encode {i : Instr} (hw : i.WellFormed) : decodeWord (encode i) = .ok i := by
  obtain ⟨r, hr, hit, built⟩ := encode_hits_row i hw
  rw [decodeWord_of_row hr hit, built]

/-- Settles O1: the bytes of a word decode as the word does, and the encoded word hits the instruction's own row. -/
theorem decodeOfEncodeIsTheInstruction : Obligations.DecodeOfEncodeIsTheInstruction := by
  intro i rest hw
  rw [decode_bytesOfWord, decodeWord_encode hw]
  rfl

/-! ### The fields of a word, as numbers (R61) -/

theorem fieldX_val (op : Word) : (fieldX op).val = op.toNat / 256 % 16 := by
  simp [fieldX, Nat.shiftRight_eq_div_pow]

theorem fieldY_val (op : Word) : (fieldY op).val = op.toNat / 16 % 16 := by
  simp [fieldY, Nat.shiftRight_eq_div_pow]

theorem fieldN_val (op : Word) : (fieldN op).val = op.toNat % 16 := by
  simp [fieldN]

theorem fieldKK_toNat (op : Word) : (fieldKK op).toNat = op.toNat % 256 := by
  simp [fieldKK, BitVec.extractLsb'_toNat]

theorem fieldNNN_toNat (op : Word) : (fieldNNN op).toNat = op.toNat % 4096 := by
  simp [fieldNNN, BitVec.extractLsb'_toNat]

/-! ### A word under each mask of the map is the pattern and its fields, so the format's encoder gives it back (R62) -/

theorem encodeNNN_of_mask {op p : Word} (h : op &&& 0xF000 = p) : encodeNNN p (fieldNNN op) = op := by
  have fixed : p &&& 0xF000 = p := by rw [← h, BitVec.and_assoc]; rfl
  have number := congrArg BitVec.toNat h
  rw [mask_F000] at number
  refine BitVec.eq_of_toNat_eq ?_
  rw [encodeNNN_toNat fixed, fieldNNN_toNat]
  omega

theorem encodeXKK_of_mask {op p : Word} (h : op &&& 0xF000 = p) : encodeXKK p (fieldX op) (fieldKK op) = op := by
  have fixed : p &&& 0xF000 = p := by rw [← h, BitVec.and_assoc]; rfl
  have number := congrArg BitVec.toNat h
  rw [mask_F000] at number
  refine BitVec.eq_of_toNat_eq ?_
  rw [encodeXKK_toNat fixed, fieldX_val, fieldKK_toNat]
  omega

theorem encodeXY_of_mask {op p : Word} (h : op &&& 0xF00F = p) : encodeXY p (fieldX op) (fieldY op) = op := by
  have fixed : p &&& 0xF00F = p := by rw [← h, BitVec.and_assoc]; rfl
  have number := congrArg BitVec.toNat h
  rw [mask_F00F] at number
  refine BitVec.eq_of_toNat_eq ?_
  rw [encodeXY_toNat fixed, fieldX_val, fieldY_val]
  omega

theorem encodeX_of_mask {op p : Word} (h : op &&& 0xF0FF = p) : encodeX p (fieldX op) = op := by
  have fixed : p &&& 0xF0FF = p := by rw [← h, BitVec.and_assoc]; rfl
  have number := congrArg BitVec.toNat h
  rw [mask_F0FF] at number
  refine BitVec.eq_of_toNat_eq ?_
  rw [encodeX_toNat fixed, fieldX_val]
  omega

/-- The word of `DXYN`: the sum of its three nibbles. -/
theorem encode_drw_toNat (x y : Reg) (n : Fin 16) :
    (encode (.drw x y n)).toNat = 0xD000 + x.val * 256 + y.val * 16 + n.val := by
  obtain ⟨high, low⟩ : (encodeXY 0xD000 x y) &&& 0xFFF0 = encodeXY 0xD000 x y ∧ nibbleAt n 0 &&& 0xFFF0 = 0 := by
    constructor
    · revert x y; decide
    · revert n; decide
  have number : (nibbleAt n 0).toNat = n.val := by revert n; decide
  rw [encode, toNat_or_of_mask high low, encodeXY_toNat (by decide), number]
  rfl

theorem encode_drw_of_mask {op : Word} (h : op &&& 0xF000 = 0xD000) :
    encode (.drw (fieldX op) (fieldY op) (fieldN op)) = op := by
  have number := congrArg BitVec.toNat h
  rw [mask_F000, show (0xD000 : Word).toNat = 0xD000 from rfl] at number
  refine BitVec.eq_of_toNat_eq ?_
  rw [encode_drw_toNat, fieldX_val, fieldY_val, fieldN_val]
  omega

/-! ### Row by row: a word that hits the row is the word of the instruction the row builds -/

/-- Every word that hits the row is the encoder's word for the instruction the row reads, which is well formed. -/
def OpcodeRow.EncodesBack (r : OpcodeRow) : Prop :=
  ∀ op, r.hits op = true → encode (r.build op) = op ∧ (r.build op).WellFormed

section
variable {p : Word}

theorem encodesBack_fixed {i : Instr} (he : encode i = p) (hw : i.WellFormed) :
    OpcodeRow.EncodesBack ⟨p, 0xFFFF, fun _ => i⟩ := fun op h =>
  ⟨by rw [he, ← mask_FFFF op]; exact (OpcodeRow.hits_iff.1 h).symm, hw⟩

theorem encodesBack_NNN {mk : Addr → Instr} (he : ∀ nnn, encode (mk nnn) = encodeNNN p nnn)
    (hw : ∀ nnn, (mk nnn).WellFormed) : OpcodeRow.EncodesBack ⟨p, 0xF000, fun op => mk (fieldNNN op)⟩ := fun _ h =>
  ⟨(he _).trans (encodeNNN_of_mask (OpcodeRow.hits_iff.1 h)), hw _⟩

theorem encodesBack_XKK {mk : Reg → Byte → Instr} (he : ∀ x kk, encode (mk x kk) = encodeXKK p x kk)
    (hw : ∀ x kk, (mk x kk).WellFormed) :
    OpcodeRow.EncodesBack ⟨p, 0xF000, fun op => mk (fieldX op) (fieldKK op)⟩ := fun _ h =>
  ⟨(he _ _).trans (encodeXKK_of_mask (OpcodeRow.hits_iff.1 h)), hw _ _⟩

theorem encodesBack_XY {mk : Reg → Reg → Instr} (he : ∀ x y, encode (mk x y) = encodeXY p x y)
    (hw : ∀ x y, (mk x y).WellFormed) :
    OpcodeRow.EncodesBack ⟨p, 0xF00F, fun op => mk (fieldX op) (fieldY op)⟩ := fun _ h =>
  ⟨(he _ _).trans (encodeXY_of_mask (OpcodeRow.hits_iff.1 h)), hw _ _⟩

theorem encodesBack_X {mk : Reg → Instr} (he : ∀ x, encode (mk x) = encodeX p x) (hw : ∀ x, (mk x).WellFormed) :
    OpcodeRow.EncodesBack ⟨p, 0xF0FF, fun op => mk (fieldX op)⟩ := fun _ h =>
  ⟨(he _).trans (encodeX_of_mask (OpcodeRow.hits_iff.1 h)), hw _⟩

end

/-- `BNNN`: its register is read from the top nibble of its address, so the instruction is well formed (R87). -/
theorem encodesBack_jpOffset :
    OpcodeRow.EncodesBack ⟨0xB000, 0xF000, fun op => .jpOffset (fieldNNN op) (fieldX op)⟩ := by
  intro op h
  refine ⟨encodeNNN_of_mask (OpcodeRow.hits_iff.1 h), beq_iff_eq.2 ?_⟩
  rw [fieldX_val, fieldNNN_toNat]
  omega

theorem rowsFlow_encodesBack : ∀ r ∈ rowsFlow, r.EncodesBack := by
  simp only [rowsFlow, List.forall_mem_cons, List.not_mem_nil, false_implies, implies_true, and_true]
  exact ⟨encodesBack_fixed rfl rfl, encodesBack_fixed rfl rfl,
    encodesBack_NNN (fun _ => rfl) (fun _ => rfl), encodesBack_NNN (fun _ => rfl) (fun _ => rfl),
    encodesBack_XKK (fun _ _ => rfl) (fun _ _ => rfl), encodesBack_XKK (fun _ _ => rfl) (fun _ _ => rfl),
    encodesBack_XY (fun _ _ => rfl) (fun _ _ => rfl),
    encodesBack_XKK (fun _ _ => rfl) (fun _ _ => rfl), encodesBack_XKK (fun _ _ => rfl) (fun _ _ => rfl)⟩

theorem rowsAlu_encodesBack : ∀ r ∈ rowsAlu, r.EncodesBack := by
  simp only [rowsAlu, List.forall_mem_cons, List.not_mem_nil, false_implies, implies_true, and_true]
  refine ⟨?_, ?_, ?_, ?_, ?_, ?_, ?_, ?_, ?_⟩
  all_goals exact encodesBack_XY (fun _ _ => rfl) (fun _ _ => rfl)

theorem rowsMixed_encodesBack : ∀ r ∈ rowsMixed, r.EncodesBack := by
  simp only [rowsMixed, List.forall_mem_cons, List.not_mem_nil, false_implies, implies_true, and_true]
  exact ⟨encodesBack_XY (fun _ _ => rfl) (fun _ _ => rfl), encodesBack_NNN (fun _ => rfl) (fun _ => rfl),
    encodesBack_jpOffset, encodesBack_XKK (fun _ _ => rfl) (fun _ _ => rfl),
    fun _ h => ⟨encode_drw_of_mask (OpcodeRow.hits_iff.1 h), rfl⟩,
    encodesBack_X (fun _ => rfl) (fun _ => rfl), encodesBack_X (fun _ => rfl) (fun _ => rfl)⟩

theorem rowsFx_encodesBack : ∀ r ∈ rowsFx, r.EncodesBack := by
  simp only [rowsFx, List.forall_mem_cons, List.not_mem_nil, false_implies, implies_true, and_true]
  refine ⟨?_, ?_, ?_, ?_, ?_, ?_, ?_, ?_, ?_⟩
  all_goals exact encodesBack_X (fun _ => rfl) (fun _ => rfl)

theorem opcodeTable_encodesBack {r : OpcodeRow} (hr : r ∈ opcodeTable) : r.EncodesBack := by
  simp only [opcodeTable, List.mem_append] at hr
  rcases hr with ((hr | hr) | hr) | hr
  · exact rowsFlow_encodesBack r hr
  · exact rowsAlu_encodesBack r hr
  · exact rowsMixed_encodesBack r hr
  · exact rowsFx_encodesBack r hr

theorem encode_of_decodeWord {op : Word} {i : Instr} (h : decodeWord op = .ok i) : encode i = op ∧ i.WellFormed := by
  obtain ⟨r, hr, hit, rfl⟩ := decodeWord_ok h
  exact opcodeTable_encodesBack hr op hit

/-- Settles O2: the word hits the row it decodes by, and every row encodes back. -/
theorem encodeOfDecodeIsTheWord : Obligations.EncodeOfDecodeIsTheWord := fun _ _ => encode_of_decodeWord

/-! ### The words of the map, as numbers (R65) -/

theorem decodeWord_isOk_iff (op : Word) : (∃ i, decodeWord op = .ok i) ↔ ∃ r ∈ opcodeTable, r.hits op = true := by
  constructor
  · rintro ⟨i, h⟩
    obtain ⟨r, hr, hit, -⟩ := decodeWord_ok h
    exact ⟨r, hr, hit⟩
  · rintro ⟨r, hr, hit⟩
    exact ⟨_, decodeWord_of_row hr hit⟩

theorem decodeWord_isInvalid_iff (op : Word) :
    decodeWord op = .error (.invalidOpcode op) ↔ ¬∃ r ∈ opcodeTable, r.hits op = true := by
  rw [← decodeWord_isOk_iff]
  cases h : decodeWord op with
  | ok i => simp
  | error e => simp [(decodeWord_error h).1]

theorem and_eq_iff_F000 (op p : Word) : op &&& 0xF000 = p ↔ op.toNat / 4096 * 4096 = p.toNat := by
  rw [← BitVec.toNat_inj, mask_F000]

theorem and_eq_iff_F00F (op p : Word) : op &&& 0xF00F = p ↔ op.toNat / 4096 * 4096 + op.toNat % 16 = p.toNat := by
  rw [← BitVec.toNat_inj, mask_F00F]

theorem and_eq_iff_F0FF (op p : Word) : op &&& 0xF0FF = p ↔ op.toNat / 4096 * 4096 + op.toNat % 256 = p.toNat := by
  rw [← BitVec.toNat_inj, mask_F0FF]

theorem and_eq_iff_FFFF (op p : Word) : op &&& 0xFFFF = p ↔ op.toNat = p.toNat := by
  rw [← BitVec.toNat_inj, mask_FFFF]

/-- Settles O3: for each top nibble the rows of the map and the rows of the table share out the words. -/
theorem invalidWordsAreThoseOfTheTable : Obligations.InvalidWordsAreThoseOfTheTable := by
  intro op top n4 low invalid
  have valid : (∃ r ∈ opcodeTable, r.hits op = true) ↔ ¬invalid := by
    simp only [opcodeTable, rowsFlow, rowsAlu, rowsMixed, rowsFx, List.cons_append, List.nil_append,
      List.exists_mem_cons_iff, List.not_mem_nil, false_and, exists_false, or_false, OpcodeRow.hits_iff,
      and_eq_iff_F000, and_eq_iff_F00F, and_eq_iff_F0FF, and_eq_iff_FFFF]
    have htop : op.toNat / 4096 < 16 := by omega
    simp only [invalid, top, n4, low, List.mem_cons, List.not_mem_nil, or_false]
    interval_cases ht : op.toNat / 4096 <;> simp <;> omega
  exact ⟨by rw [decodeWord_isInvalid_iff, valid, not_not], by rw [decodeWord_isOk_iff, valid]⟩

/-- Settles O4: the map is a finite list, run on ten words. -/
theorem sampleWordsDecodeAsWritten : Obligations.SampleWordsDecodeAsWritten := by
  unfold Obligations.SampleWordsDecodeAsWritten
  decide

end Sys2Proof
end

section
/-! PROOFS. What a step can do, said once over all events (spec/00_scope.md R5), and what each instruction can write
(spec/10_state.md): the whole-machine rules are read off from these. -/

namespace Sys2Proof.Machine

variable {s t : State} {i : Instr}

/-! ### A step, by its event -/

/-- Everything a step from `s` to `t` can have been. -/
inductive StepCase (s t : State) : Prop where
  /-- A RESET (R180). -/
  | reset (c a : Bool) (event : s.nextEvent = .reset c a) (made : t = s.popEvent.resetEvent c a)
  /-- A LOAD, before the first STEP (R181). -/
  | load (bytes : List Byte) (offset : Nat) (event : s.nextEvent = .load bytes offset) (running : s.running)
      (first : s.started = false) (made : t = s.popEvent.loadImage bytes offset)
  /-- A STEP that ran an instruction (R66). -/
  | ran (i : Instr) (rest : List Byte) (event : s.nextEvent = .step) (running : s.running)
      (decoded : decode s.fetchBytes = .ok (i, rest)) (executed : exec i s.popEvent.advance = .next t)
  /-- A STEP whose bytes are no instruction (R65). -/
  | invalid (e : Reject) (event : s.nextEvent = .step) (running : s.running)
      (undecoded : decode s.fetchBytes = .error e) (made : t = s.popEvent.advance.raise .invalidOpcode)
  /-- A TICK (R161). -/
  | tick (event : s.nextEvent = .tick) (running : s.running) (made : t = s.popEvent.tickTimers)
  /-- A SET_KEY (R163). -/
  | setKey (k : Key) (p : Bool) (event : s.nextEvent = .setKey k p) (made : t = s.popEvent.setKey k p)
  /-- A TAKE_RENDER (R164). -/
  | takeRender (event : s.nextEvent = .takeRender) (made : t = s.popEvent.setRender false)

theorem step_case (h : step s = .next t) : StepCase s t := by
  rcases s.popEvent.event_next h with ⟨c, a, he, ht⟩ | ⟨bytes, offset, he, hf, hs, ht⟩ | ⟨he, hstep⟩ | ⟨he, hf, ht⟩ |
    ⟨k, p, he, ht⟩ | ⟨he, ht⟩
  · exact .reset c a he ht
  · exact .load bytes offset he hf hs ht
  · obtain ⟨hf, ⟨i, rest, hd, hx⟩ | ⟨⟨e, hd⟩, ht⟩⟩ := s.popEvent.stepEvent_next hstep
    · exact .ran i rest he hf hd hx
    · exact .invalid e he hf hd ht
  · exact .tick he hf ht
  · exact .setKey k p he ht
  · exact .takeRender he ht

/-- A LOAD changes memory, or only `fault` (R154, R181). -/
theorem State.loadImage_eq (s : State) (bytes : List Byte) (offset : Nat) : s.loadImage bytes offset =
    { s with mem := (s.loadImage bytes offset).mem, fault := (s.loadImage bytes offset).fault } := by
  unfold State.loadImage
  split
  · rfl
  · rw [State.storeBytes_eq]

theorem State.runs_imp {p q : Instr → Prop} (h : s.runs p) (hpq : ∀ i, p i → q i) : s.runs q := by
  obtain ⟨he, i, rest, hd, hp⟩ := h
  exact ⟨he, i, rest, hd, hpq i hp⟩

/-- The decoder gives one instruction, so what a STEP runs has the property or has it not. -/
theorem State.runs_iff_of_decode {p : Instr → Prop} {rest : List Byte} (he : s.nextEvent = .step)
    (hd : decode s.fetchBytes = .ok (i, rest)) : s.runs p ↔ p i := by
  constructor
  · rintro ⟨-, j, rest', hj, hp⟩
    rw [hd] at hj
    obtain ⟨rfl, -⟩ := Prod.mk.inj (Except.ok.inj hj)
    exact hp
  · exact fun hp => ⟨he, i, rest, hd, hp⟩

theorem State.not_runs_of_error {p : Instr → Prop} {e : Reject} (hd : decode s.fetchBytes = .error e) : ¬s.runs p := by
  rintro ⟨-, j, rest, hj, -⟩
  rw [hd] at hj
  cases hj

/-- A view of the state on which the fetch, the faults, SET_KEY and TAKE_RENDER do not show. -/
def Quiet {α : Type} (f : State → α) : Prop :=
  ∀ (s : State) (pc : Word) (r : Bool) (keys : Vector Bool 16) (fault : Option FaultCause) (b : Bool) (es : List Event),
    f { s with pc := pc, renderPending := r, keys := keys, fault := fault, started := b, schedule := es } = f s

/-- What changes in a quiet view, changes by RESET, LOAD, TICK, or the instruction a STEP runs. -/
theorem step_changes {α : Type} (f : State → α) (h : step s = .next t) (changed : f t ≠ f s)
    (quiet : Quiet f := by exact fun _ _ _ _ _ _ _ => rfl) :
    s.resets ∨ (∃ bytes offset, s.nextEvent = .load bytes offset ∧ t = s.popEvent.loadImage bytes offset) ∨
      (s.nextEvent = .tick ∧ t = s.popEvent.tickTimers) ∨ s.runs fun i => exec i s.popEvent.advance = .next t := by
  cases step_case h with
  | reset c a event made => exact .inl ⟨c, a, event⟩
  | load bytes offset event running first made => exact .inr (.inl ⟨bytes, offset, event, made⟩)
  | ran i rest event running decoded executed => exact .inr (.inr (.inr ⟨event, i, rest, decoded, executed⟩))
  | invalid e event running undecoded made => exact absurd (made ▸ quiet s _ _ _ _ _ _) changed
  | tick event running made => exact .inr (.inr (.inl ⟨event, made⟩))
  | setKey k p event made => exact absurd (made ▸ quiet s _ _ _ _ _ _) changed
  | takeRender event made => exact absurd (made ▸ quiet s _ _ _ _ _ _) changed

/-- In a quiet view that does not show memory only a TICK and an instruction change anything, RESET aside. -/
theorem step_changes_by_tick_or_instr {α : Type} (f : State → α) (h : step s = .next t) (noReset : ¬s.resets)
    (changed : f t ≠ f s) (quiet : Quiet f := by exact fun _ _ _ _ _ _ _ => rfl)
    (noMemory : ∀ (s : State) (m : Memory), f { s with mem := m } = f s := by exact fun _ _ => rfl) :
    (s.nextEvent = .tick ∧ t = s.popEvent.tickTimers) ∨ s.runs fun i => exec i s.popEvent.advance = .next t := by
  rcases step_changes f h changed quiet with hr | ⟨bytes, offset, -, rfl⟩ | htick | hx
  · exact absurd hr noReset
  · rw [State.loadImage_eq] at changed
    exact absurd ((quiet { s with mem := (s.popEvent.loadImage bytes offset).mem } _ _ _ _ _ _).trans (noMemory s _))
      changed
  · exact .inl htick
  · exact .inr hx

/-- In a quiet view that shows neither memory nor the timers only an instruction changes anything, RESET aside. -/
theorem step_changes_by_instr {α : Type} (f : State → α) (h : step s = .next t) (noReset : ¬s.resets)
    (changed : f t ≠ f s) (quiet : Quiet f := by exact fun _ _ _ _ _ _ _ => rfl)
    (noMemory : ∀ (s : State) (m : Memory), f { s with mem := m } = f s := by exact fun _ _ => rfl)
    (noTimers : ∀ (s : State) (dt st : Byte), f { s with DT := dt, ST := st } = f s := by exact fun _ _ _ => rfl) :
    s.runs fun i => exec i s.popEvent.advance = .next t := by
  obtain ⟨-, rfl⟩ | hx := step_changes_by_tick_or_instr f h noReset changed quiet noMemory
  · exact absurd ((quiet s.tickTimers _ _ _ _ _ _).trans (noTimers s _ _)) changed
  · exact hx

/-! ### What an instruction can write -/

/-- Every instruction answers a next state. -/
theorem exec_next (i : Instr) (s : State) : ∃ t, exec i s = .next t := by
  cases i with
  | call nnn =>
    by_cases lt : s.sp.val < 16
    · exact ⟨_, exec_call_of_lt s nnn lt⟩
    · exact ⟨_, exec_call_of_full s nnn (by have : s.sp.val < 17 := s.sp.isLt; omega)⟩
  | ret =>
    by_cases pos : 0 < s.sp.val
    · exact ⟨_, (exec_ret_of_pos s pos).2⟩
    · exact ⟨_, exec_ret_of_empty s (by omega)⟩
  | _ => exact ⟨_, rfl⟩

/-- A call changes `pc`, the stack and `fault` alone (R82). -/
theorem exec_call_eq {nnn : Addr} (h : exec (.call nnn) s = .next t) :
    t = { s with pc := t.pc, stack := t.stack, sp := t.sp, fault := t.fault } := by
  obtain ⟨-, rfl⟩ | ⟨lt, rfl⟩ := exec_call_cases s h <;> rfl

/-- A return changes `pc`, the depth and `fault` alone (R80). -/
theorem exec_ret_eq (h : exec .ret s = .next t) : t = { s with pc := t.pc, sp := t.sp, fault := t.fault } := by
  obtain ⟨-, rfl⟩ | ⟨pos, lt, rfl⟩ := exec_ret_cases s h <;> rfl

theorem exec_modes (h : exec i s = .next t) : t.cosmacMode = s.cosmacMode ∧ t.amigaMode = s.amigaMode := by
  cases i with
  | call nnn => rw [exec_call_eq h]; exact ⟨rfl, rfl⟩
  | ret => rw [exec_ret_eq h]; exact ⟨rfl, rfl⟩
  | _ =>
    obtain rfl := Host.Outcome.next.inj h
    simp

/-- The two instructions that write the display. -/
abbrev ClearsOrDraws (i : Instr) : Prop := i = .cls ∨ ∃ x y n, i = .drw x y n

/-- Only `00E0` and `DXYN` write the display, and they alone set `render_pending`, on every execution (R16, R17). -/
theorem exec_display (h : exec i s = .next t) : (ClearsOrDraws i ∧ t.renderPending = true) ∨
    (¬ClearsOrDraws i ∧ t.display = s.display ∧ t.renderPending = s.renderPending) := by
  cases i with
  | cls => exact .inl ⟨.inl rfl, by obtain rfl := Host.Outcome.next.inj h; rfl⟩
  | drw x y n => exact .inl ⟨.inr ⟨x, y, n, rfl⟩, by obtain rfl := Host.Outcome.next.inj h; rfl⟩
  | call nnn => rw [exec_call_eq h]; exact .inr (by simp)
  | ret => rw [exec_ret_eq h]; exact .inr (by simp)
  | _ =>
    obtain rfl := Host.Outcome.next.inj h
    exact .inr (by simp)

/-- Only `FX33` and `FX55` write memory, as blocks of single-byte writes (R123, R124). -/
theorem exec_mem (h : exec i s = .next t) :
    t.mem = s.mem ∨ ((∃ x, i = .storeBcd x ∨ i = .storeRegs x) ∧ ∃ a bs, t.mem = (s.storeBytes a bs).mem) := by
  cases i with
  | storeBcd x => exact .inr ⟨⟨x, .inl rfl⟩, _, _, by obtain rfl := Host.Outcome.next.inj h; rfl⟩
  | storeRegs x => exact .inr ⟨⟨x, .inr rfl⟩, _, _, by obtain rfl := Host.Outcome.next.inj h; rfl⟩
  | call nnn => rw [exec_call_eq h]; exact .inl rfl
  | ret => rw [exec_ret_eq h]; exact .inl rfl
  | _ =>
    obtain rfl := Host.Outcome.next.inj h
    exact .inl (by simp)

/-- Only a call pushes, only a return pops, and a pop leaves the entries (R14). -/
theorem exec_stack (h : exec i s = .next t) :
    (t.sp = s.sp ∧ t.stack = s.stack) ∨ ((∃ nnn, i = .call nnn) ∧ s.sp < t.sp) ∨
      (i = .ret ∧ t.sp < s.sp ∧ t.stack = s.stack) := by
  cases i with
  | call nnn =>
    obtain ⟨-, rfl⟩ | ⟨lt, rfl⟩ := exec_call_cases s h
    · exact .inl ⟨rfl, rfl⟩
    · exact .inr (.inl ⟨⟨nnn, rfl⟩, Nat.lt_succ_self _⟩)
  | ret =>
    obtain ⟨-, rfl⟩ | ⟨pos, lt, rfl⟩ := exec_ret_cases s h
    · exact .inl ⟨rfl, rfl⟩
    · exact .inr (.inr ⟨rfl, Nat.sub_lt pos one_pos, rfl⟩)
  | _ =>
    obtain rfl := Host.Outcome.next.inj h
    exact .inl (by simp)

/-- The writers of `I` (R12), the block copies in COSMAC mode only (R124, R125). -/
theorem exec_I (h : exec i s = .next t) :
    t.I = s.I ∨ (∃ nnn, i = .ldI nnn) ∨ (∃ x, i = .addI x ∨ i = .ldFont x) ∨
      s.cosmacMode = true ∧ ∃ x, i = .storeRegs x ∨ i = .loadRegs x := by
  have block : ∀ x, s.blockNextI x = s.I ∨ s.cosmacMode = true := fun x => by
    unfold State.blockNextI
    split
    · exact .inr ‹_›
    · exact .inl rfl
  cases i with
  | ldI nnn => exact .inr (.inl ⟨nnn, rfl⟩)
  | addI x => exact .inr (.inr (.inl ⟨x, .inl rfl⟩))
  | ldFont x => exact .inr (.inr (.inl ⟨x, .inr rfl⟩))
  | storeRegs x =>
    obtain rfl := Host.Outcome.next.inj h
    exact (block x).imp_right fun hc => .inr (.inr ⟨hc, x, .inl rfl⟩)
  | loadRegs x =>
    obtain rfl := Host.Outcome.next.inj h
    exact (block x).imp_right fun hc => .inr (.inr ⟨hc, x, .inr rfl⟩)
  | call nnn => rw [exec_call_eq h]; exact .inl rfl
  | ret => rw [exec_ret_eq h]; exact .inl rfl
  | _ =>
    obtain rfl := Host.Outcome.next.inj h
    exact .inl (by simp)

/-- Of the instructions only `FX15` writes `DT` and only `FX18` writes `ST` (R15). -/
theorem exec_timers (h : exec i s = .next t) :
    (t.DT = s.DT ∨ ∃ x, i = .setDT x) ∧ (t.ST = s.ST ∨ ∃ x, i = .setST x) := by
  cases i with
  | setDT x => exact ⟨.inr ⟨x, rfl⟩, .inl (by obtain rfl := Host.Outcome.next.inj h; rfl)⟩
  | setST x => exact ⟨.inl (by obtain rfl := Host.Outcome.next.inj h; rfl), .inr ⟨x, rfl⟩⟩
  | call nnn => rw [exec_call_eq h]; exact ⟨.inl rfl, .inl rfl⟩
  | ret => rw [exec_ret_eq h]; exact ⟨.inl rfl, .inl rfl⟩
  | _ =>
    obtain rfl := Host.Outcome.next.inj h
    simp

/-- Only `FX0A` in COSMAC mode writes the latch (R18). -/
theorem exec_latch (h : exec i s = .next t) : t.latch = s.latch ∨ (s.cosmacMode = true ∧ ∃ x, i = .waitKey x) := by
  cases i with
  | waitKey x =>
    obtain rfl := Host.Outcome.next.inj h
    rcases s.waitForKey_cases x with e | ⟨cosmac, -⟩ | ⟨-, k, -, e⟩ | ⟨cosmac, -⟩
    · exact .inl (by rw [e]; rfl)
    · exact .inr ⟨cosmac, x, rfl⟩
    · exact .inl (by rw [e]; rfl)
    · exact .inr ⟨cosmac, x, rfl⟩
  | call nnn => rw [exec_call_eq h]; exact .inl rfl
  | ret => rw [exec_ret_eq h]; exact .inl rfl
  | _ =>
    obtain rfl := Host.Outcome.next.inj h
    exact .inl (by simp)

/-- An instruction sets `fault` in two cases: a call on a full stack and a return on an empty one (R152, R153). -/
theorem exec_fault (h : exec i s = .next t) :
    t.fault = s.fault ∨ (t.fault = some .stackOverflow ∧ s.sp.val = 16 ∧ ∃ nnn, i = .call nnn) ∨
      (t.fault = some .stackUnderflow ∧ s.sp.val = 0 ∧ i = .ret) := by
  cases i with
  | call nnn =>
    obtain ⟨full, rfl⟩ | ⟨lt, rfl⟩ := exec_call_cases s h
    · exact .inr (.inl ⟨rfl, full, nnn, rfl⟩)
    · exact .inl rfl
  | ret =>
    obtain ⟨empty, rfl⟩ | ⟨pos, lt, rfl⟩ := exec_ret_cases s h
    · exact .inr (.inr ⟨rfl, empty, rfl⟩)
    · exact .inl rfl
  | _ =>
    obtain rfl := Host.Outcome.next.inj h
    exact .inl (by simp)

end Sys2Proof.Machine
end

section
/-! PROOFS. The state invariant (spec/10_state.md R26): what it asks of `I`, of the latch and of memory, kept by every
instruction and so by every event. -/

namespace Sys2Proof.Machine

variable {s t : State} {i : Instr}

/-- The invariant speaks of `I`, the mode, the latch and memory alone. -/
theorem State.Inv.congr (inv : s.Inv) (hI : t.I = s.I) (hmode : t.cosmacMode = s.cosmacMode)
    (hlatch : t.latch = s.latch) (hmem : t.mem = s.mem) : t.Inv :=
  ⟨hI ▸ inv.index_le, fun plain => hlatch.trans (inv.latch_none (hmode ▸ plain)), hmem ▸ inv.mem_wf⟩

theorem State.blockNextI_le (h : s.I.toNat ≤ 0xFFF) (x : Reg) : (s.blockNextI x).toNat ≤ 0xFFF := by
  rw [State.blockNextI_toNat]
  split <;> omega

/-- No instruction takes `I` above `0xFFF`: each of its five writers takes a 12-bit value (R26). -/
theorem exec_index_le (h : exec i s = .next t) (le : s.I.toNat ≤ 0xFFF) : t.I.toNat ≤ 0xFFF := by
  rcases exec_I h with same | ⟨nnn, rfl⟩ | ⟨x, rfl | rfl⟩ | ⟨-, x, rfl | rfl⟩
  · exact same ▸ le
  all_goals obtain rfl := Host.Outcome.next.inj h
  · rw [State.setI_I, BitVec.toNat_setWidth_of_le (by decide)]
    exact Nat.le_of_lt_succ nnn.isLt
  · rw [State.addToI_I_toNat]
    exact min_le_right _ _
  · rw [State.setI_I, glyphAddr_toNat]
    omega
  · exact State.blockNextI_le le x
  · exact State.blockNextI_le le x

theorem exec_mem_wf (h : exec i s = .next t) (wf : Memory.wf s.mem) : Memory.wf t.mem := by
  obtain same | ⟨-, a, bs, stored⟩ := exec_mem h
  · exact same ▸ wf
  · exact stored ▸ State.storeBytes_wf wf a bs

theorem exec_keeps_inv (h : exec i s = .next t) (inv : s.Inv) : t.Inv := by
  refine ⟨exec_index_le h inv.index_le, fun plain => ?_, exec_mem_wf h inv.mem_wf⟩
  have plain : s.cosmacMode = false := (exec_modes h).1 ▸ plain
  obtain same | ⟨cosmac, -⟩ := exec_latch h
  · exact same.trans (inv.latch_none plain)
  · simp [plain] at cosmac

theorem State.resetWith_inv (c a : Bool) (es : List Event) : ((State.resetWith c a).setSchedule es).Inv :=
  ⟨Nat.zero_le _, fun _ => rfl, Memory.wf_nil⟩

/-- Settles O20: only instructions, RESET and LOAD write what the invariant speaks of. -/
theorem everyStepKeepsTheInvariant : Obligations.EveryStepKeepsTheInvariant := by
  intro s t inv h
  cases step_case h with
  | reset c a event made => exact made ▸ (State.resetWith_inv c a []).congr rfl rfl rfl rfl
  | load bytes offset event running first made =>
    have keep := s.popEvent.loadImage_eq bytes offset
    rw [made]
    exact ⟨keep ▸ inv.index_le, keep ▸ inv.latch_none, s.popEvent.loadImage_wf inv.mem_wf bytes offset⟩
  | ran i rest event running decoded executed =>
    exact exec_keeps_inv executed (inv.congr rfl rfl rfl rfl)
  | invalid e event running undecoded made => exact made ▸ inv.congr rfl rfl rfl rfl
  | tick event running made => exact made ▸ inv.congr rfl rfl rfl rfl
  | setKey k p event made => exact made ▸ inv.congr rfl rfl rfl rfl
  | takeRender event made => exact made ▸ inv.congr rfl rfl rfl rfl

/-- Settles O21: after reset `I` is 0, the latch and the memory are empty. -/
theorem resetMeetsTheInvariant : Obligations.ResetMeetsTheInvariant :=
  ⟨State.resetWith_inv _ _ [], State.resetWith_inv⟩

end Sys2Proof.Machine
end

section
/-! PROOFS. What each piece of state is written by, over all events (spec/10_state.md, spec/20_memory.md section 1,
spec/60_exceptions.md section 1). -/

namespace Sys2Proof.Machine

/-- Settles O22: no event but RESET and no instruction writes a mode. -/
theorem modesChangeOnlyAtReset : Obligations.ModesChangeOnlyAtReset := by
  intro s t h noReset
  by_contra changed
  obtain ⟨-, i, -, -, executed⟩ := step_changes_by_instr (fun s => (s.cosmacMode, s.amigaMode)) h noReset
    (by simpa using changed)
  exact changed (exec_modes (s := s.popEvent.advance) executed)

/-- What a step does to the display and `render_pending`: drawn, kept, made afresh, or the bit alone taken. -/
theorem step_display {s t : State} (h : step s = .next t) : (s.runs ClearsOrDraws ∧ t.renderPending = true) ∨
    ¬s.runs ClearsOrDraws ∧ (t.display = s.display ∧ t.renderPending = s.renderPending ∨
      s.resets ∧ t.renderPending = false ∨
      s.nextEvent = .takeRender ∧ t.display = s.display ∧ t.renderPending = false) := by
  have noStep : s.nextEvent ≠ .step → ¬s.runs ClearsOrDraws := fun he hr => he hr.1
  cases step_case h with
  | reset c a event made => exact .inr ⟨noStep (by simp [event]), .inr (.inl ⟨⟨c, a, event⟩, made ▸ rfl⟩)⟩
  | load bytes offset event running first made =>
    rw [State.loadImage_eq] at made
    exact .inr ⟨noStep (by simp [event]), .inl (made ▸ ⟨rfl, rfl⟩)⟩
  | ran i rest event running decoded executed =>
    rw [State.runs_iff_of_decode event decoded]
    exact (exec_display executed).imp_right fun ⟨other, keep⟩ => ⟨other, .inl keep⟩
  | invalid e event running undecoded made =>
    exact .inr ⟨State.not_runs_of_error undecoded, .inl (made ▸ ⟨rfl, rfl⟩)⟩
  | tick event running made => exact .inr ⟨noStep (by simp [event]), .inl (made ▸ ⟨rfl, rfl⟩)⟩
  | setKey k p event made => exact .inr ⟨noStep (by simp [event]), .inl (made ▸ ⟨rfl, rfl⟩)⟩
  | takeRender event made => exact .inr ⟨noStep (by simp [event]), .inr (.inr ⟨event, made ▸ ⟨rfl, rfl⟩⟩)⟩

/-- Settles O23: the four clauses are read off from the four things a step can do to the display. -/
theorem displayChangesOnlyByClearAndDraw : Obligations.DisplayChangesOnlyByClearAndDraw := by
  intro s t h
  obtain ⟨drawn, set⟩ | ⟨other, ⟨display, render⟩ | ⟨resets, clear⟩ | ⟨taken, display, clear⟩⟩ := step_display h
  · exact ⟨fun _ => .inr drawn, fun _ => set, fun _ _ => drawn, fun clear => by simp [set] at clear⟩
  · exact ⟨fun changed => absurd display changed, fun drawn => absurd drawn other,
      fun set clear => by simp [render, clear] at set, fun clear set => by simp [render, set] at clear⟩
  · exact ⟨fun _ => .inl resets, fun drawn => absurd drawn other, fun set => by simp [clear] at set,
      fun _ _ => .inl resets⟩
  · exact ⟨fun changed => absurd display changed, fun drawn => absurd drawn other, fun set => by simp [clear] at set,
      fun _ _ => .inr taken⟩

/-- Settles O24: the timers and the other events leave memory alone, and of the instructions two write it. -/
theorem memoryChangesOnlyByStoresAndLoad : Obligations.MemoryChangesOnlyByStoresAndLoad := by
  rintro s t h ⟨a, changed⟩
  rcases step_changes (fun s => s.readByte a) h changed with
    reset | ⟨bytes, offset, event, -⟩ | ⟨-, rfl⟩ | runs
  · exact .inl reset
  · exact .inr (.inl ⟨bytes, offset, event⟩)
  · exact absurd rfl changed
  · refine .inr (.inr (State.runs_imp runs fun i executed => ?_))
    obtain same | ⟨store, -⟩ := exec_mem executed
    · exact absurd (congrArg (Memory.read · (trunc12 a)) same) changed
    · exact store

/-- Settles O25: an instruction that changes the depth or the entries is the call, or the return, which keeps the
entries. -/
theorem stackChangesOnlyByCallAndReturn : Obligations.StackChangesOnlyByCallAndReturn := by
  intro s t h noReset
  have runs : (s.sp, s.stack) ≠ (t.sp, t.stack) → s.runs fun i => exec i s.popEvent.advance = .next t := fun changed =>
    step_changes_by_instr (fun s => (s.sp, s.stack)) h noReset changed.symm
  refine ⟨fun grown => ?_, fun shrunk => ?_, fun moved => ?_⟩
  · refine State.runs_imp (runs (by simp [grown.ne])) fun i executed => ?_
    obtain ⟨depth, -⟩ | ⟨call, -⟩ | ⟨-, depth, -⟩ := exec_stack executed
    · exact absurd depth grown.ne'
    · exact call
    · exact absurd depth grown.asymm
  · refine State.runs_imp (runs (by simp [shrunk.ne'])) fun i executed => ?_
    obtain ⟨depth, -⟩ | ⟨-, depth⟩ | ⟨ret, -⟩ := exec_stack executed
    · exact absurd depth shrunk.ne
    · exact absurd depth shrunk.asymm
    · exact ret
  · refine State.runs_imp (runs (by simp [Ne.symm moved])) fun i executed => ?_
    obtain ⟨-, same⟩ | ⟨call, -⟩ | ⟨-, -, same⟩ := exec_stack executed
    · exact absurd same moved
    · exact call
    · exact absurd same moved

/-- Settles O26: each register's writers among the instructions, and the TICK for the timers. -/
theorem specialRegistersChangeOnlyByTheirWriters : Obligations.SpecialRegistersChangeOnlyByTheirWriters := by
  intro s t h noReset
  refine ⟨fun changed => ?_, fun changed => ?_, fun changed => ?_, fun changed => ?_⟩
  · exact State.runs_imp (step_changes_by_instr State.I h noReset changed) fun i executed =>
      (exec_I executed).resolve_left changed
  · exact (step_changes_by_tick_or_instr State.DT h noReset changed).imp And.left fun runs =>
      State.runs_imp runs fun i executed => (exec_timers (s := s.popEvent.advance) executed).1.resolve_left changed
  · exact (step_changes_by_tick_or_instr State.ST h noReset changed).imp And.left fun runs =>
      State.runs_imp runs fun i executed => (exec_timers (s := s.popEvent.advance) executed).2.resolve_left changed
  · obtain ⟨event, i, rest, decoded, executed⟩ := step_changes_by_instr State.latch h noReset changed
    obtain ⟨cosmac, key⟩ := (exec_latch executed).resolve_left changed
    exact ⟨cosmac, event, i, rest, decoded, key⟩

/-- The instructions that write `VF`: the flag writers under their conditions on the modes, and those with `V[15]` as
destination (R11). -/
theorem exec_VF {s t : State} {i : Instr} (h : exec i s = .next t) (changed : t.reg VF ≠ s.reg VF) :
    (s.cosmacMode = true ∧ ∃ x y, i = .orReg x y ∨ i = .andReg x y ∨ i = .xorReg x y) ∨
    (∃ x y, i = .addReg x y ∨ i = .subReg x y ∨ i = .shr x y ∨ i = .subnReg x y ∨ i = .shl x y) ∨
    (∃ x y n, i = .drw x y n) ∨
    (s.amigaMode = true ∧ ∃ x, i = .addI x ∧ 0xFFF < s.I.toNat + (s.reg x).toNat) ∨
    (∃ kk, i = .ldImm VF kk ∨ i = .addImm VF kk ∨ i = .rnd VF kk) ∨
    (∃ y, i = .ldReg VF y ∨ i = .orReg VF y ∨ i = .andReg VF y ∨ i = .xorReg VF y) ∨
    i = .readDT VF ∨ i = .waitKey VF ∨ i = .loadRegs VF := by
  have written : ∀ {x v}, t.V = (s.setReg x v).V → x = VF := by
    intro x v hV
    by_contra other
    refine changed ((congrArg (·[VF]) hV).trans ?_)
    exact (s.setReg_reg x v VF).trans (if_neg (Ne.symm other))
  have logic : ∀ {x v}, t = s.setLogic x v → s.cosmacMode = true ∨ x = VF := by
    rintro x v rfl
    by_contra! other
    exact changed (by rw [State.setLogic_reg, if_neg (by simp [other.1]), if_neg (Ne.symm other.2)])
  cases i with
  | call nnn => rw [exec_call_eq h] at changed; exact absurd rfl changed
  | ret => rw [exec_ret_eq h] at changed; exact absurd rfl changed
  | ldImm x kk | addImm x kk | ldReg x y | readDT x =>
    obtain rfl : x = VF := written (by rw [← Host.Outcome.next.inj h])
    simp
  | rnd x kk =>
    obtain rfl : x = VF := written (by rw [← Host.Outcome.next.inj h, State.nextDraw_V])
    simp
  | orReg x y | andReg x y | xorReg x y =>
    obtain cosmac | rfl := logic (Host.Outcome.next.inj h).symm
    · simp [cosmac]
    · simp
  | addReg | subReg | shr | subnReg | shl | drw => simp
  | addI x =>
    obtain rfl := Host.Outcome.next.inj h
    rw [State.addToI_reg] at changed
    obtain ⟨-, overflow⟩ := (ite_ne_right_iff.1 changed).1
    simp [overflow]
  | waitKey x =>
    obtain rfl := Host.Outcome.next.inj h
    obtain e | ⟨-, -, k, -, e⟩ | ⟨-, k, -, e⟩ | ⟨-, j, -, -, e⟩ := s.waitForKey_cases x
    · rw [e] at changed; exact absurd rfl changed
    · rw [e] at changed; exact absurd rfl changed
    · obtain rfl : x = VF := written (by rw [e]); simp
    · obtain rfl : x = VF := written (by rw [e, State.setLatch_V]); simp
  | loadRegs x =>
    obtain rfl := Host.Outcome.next.inj h
    rw [State.setI_reg, State.setRegs_regsLoaded_reg] at changed
    obtain rfl : x = VF := top_le_iff.1 (ite_ne_right_iff.1 changed).1
    simp
  | _ =>
    obtain rfl := Host.Outcome.next.inj h
    simp at changed

/-- Settles O27: only RESET and instructions change a register, and these are the ones that change the last. -/
theorem flagChangesOnlyByItsWriters : Obligations.FlagChangesOnlyByItsWriters := by
  intro s t h changed
  by_cases reset : s.resets
  · exact .inl reset
  · exact .inr (State.runs_imp (step_changes_by_instr (fun s => s.reg VF) h reset changed) fun i executed =>
      exec_VF (s := s.popEvent.advance) executed changed)

/-- The cause an image that does not fit leaves, and that one that fits leaves none (R154). -/
theorem State.loadImage_fault (s : State) (bytes : List Byte) (offset : Nat) : (s.loadImage bytes offset).fault =
    if 4096 < offset + bytes.length then some .romTooLarge else s.fault := by
  unfold State.loadImage
  split <;> simp

/-- Settles O28: a running core has no cause, so the cause comes from the step: the LOAD, the invalid word or one of the
two instructions. -/
theorem onlyTheFourCausesAreRaised : Obligations.OnlyTheFourCausesAreRaised := by
  refine ⟨exec_next, fun s t c h raised running => ?_⟩
  have none_raised : t.fault ≠ s.fault := by simp [raised, running]
  cases step_case h with
  | reset c a event made => subst made; cases raised
  | load bytes offset event _ first made =>
    rw [made, State.loadImage_fault] at none_raised raised
    obtain ⟨large, -⟩ := ite_ne_right_iff.1 none_raised
    rw [if_pos large] at raised
    cases raised
    exact ⟨bytes, offset, event, large⟩
  | ran i rest event _ decoded executed =>
    obtain same | ⟨cause, full, call⟩ | ⟨cause, empty, ret⟩ := exec_fault executed
    · exact absurd same none_raised
    · obtain rfl := Option.some.inj (raised.symm.trans cause)
      exact ⟨full, event, i, rest, decoded, call⟩
    · obtain rfl := Option.some.inj (raised.symm.trans cause)
      exact ⟨empty, event, i, rest, decoded, ret⟩
  | invalid e event _ undecoded made =>
    subst made
    cases raised
    exact ⟨event, e, undecoded⟩
  | tick event _ made => exact absurd (made ▸ rfl) none_raised
  | setKey k p event made => exact absurd (made ▸ rfl) none_raised
  | takeRender event made => exact absurd (made ▸ rfl) none_raised

end Sys2Proof.Machine
end

section
/-! PROOFS. The STEP event (spec/30_encoding.md section 4): fetch, decode and dispatch put together, its faults, and
where `pc` goes. -/

namespace Sys2Proof.Machine

variable {s t : State} {i : Instr} {rest : List Byte}

/-- The decoder on bytes gives well-formed instructions only. -/
theorem decode_wellFormed {bytes : List Byte} (h : decode bytes = .ok (i, rest)) : i.WellFormed := by
  unfold decode at h
  split at h
  · split at h
    · next hd =>
      obtain ⟨rfl, -⟩ := Prod.mk.inj (Except.ok.inj h)
      exact (encode_of_decodeWord hd).2
    · cases h
  · cases h
  · cases h

/-- A STEP of a running core whose bytes decode. -/
theorem step_of_decoded (event : s.nextEvent = .step) (running : s.running)
    (decoded : decode s.fetchBytes = .ok (i, rest)) : step s = exec i s.popEvent.advance := by
  rw [step_of_step s event, State.stepEvent, s.popEvent.unlessHalted_running running, State.dispatch,
    State.popEvent_fetchBytes, decoded]

/-- A STEP of a running core whose bytes do not decode. -/
theorem step_of_undecoded {e : Reject} (event : s.nextEvent = .step) (running : s.running)
    (undecoded : decode s.fetchBytes = .error e) : step s = .next (s.popEvent.advance.raise .invalidOpcode) := by
  rw [step_of_step s event, State.stepEvent, s.popEvent.unlessHalted_running running, State.dispatch,
    State.popEvent_fetchBytes, undecoded]

/-- Settles O6: the fetched bytes decode to a well-formed instruction, which the STEP runs. -/
theorem stepRunsTheDecodedInstruction : Obligations.StepRunsTheDecodedInstruction := fun _ _ _ event running decoded =>
  ⟨decode_wellFormed decoded, step_of_decoded event running decoded⟩

/-- Settles O7: each of the three cases raises its cause, and raising undoes the advance of the fetch. -/
theorem faultingStepCommitsNothing : Obligations.FaultingStepCommitsNothing := by
  rintro s c event running (⟨rfl, e, undecoded⟩ | ⟨rfl, full, nnn, rest, decoded⟩ | ⟨rfl, empty, rest, decoded⟩)
  · rw [step_of_undecoded event running undecoded, State.advance_raise]
    rfl
  · rw [step_of_decoded event running decoded, exec_call_of_full s.popEvent.advance nnn full, State.advance_raise]
    rfl
  · rw [step_of_decoded event running decoded, exec_ret_of_empty s.popEvent.advance empty, State.advance_raise]
    rfl

/-- The skip of a STEP, from the address of the instruction (R88). -/
theorem State.advance_skipIf_pc (s : State) (c : Bool) :
    (s.advance.skipIf c).pc = if c = true then s.pc + 4 else s.pc + 2 := by
  cases c with
  | false => rfl
  | true => exact BitVec.add_assoc s.pc 2 2

/-- Where a key wait leaves `pc`: at the instruction with the registers as they were, or after it (R142). -/
theorem State.advance_waitForKey_pc (s : State) (x : Reg) :
    ((s.advance.waitForKey x).pc = s.pc ∧ (s.advance.waitForKey x).V = s.V) ∨
      (s.advance.waitForKey x).pc = s.pc + 2 := by
  have back : s.pc + 2 - 2 = s.pc := BitVec.add_sub_cancel s.pc 2
  rcases s.advance.waitForKey_cases x with e | ⟨-, -, k, -, e⟩ | ⟨-, k, -, e⟩ | ⟨-, j, -, -, e⟩
  · exact .inl (e ▸ ⟨back, rfl⟩)
  · exact .inl (e ▸ ⟨back, rfl⟩)
  · exact .inr (e ▸ rfl)
  · exact .inr (e ▸ rfl)

/-- Settles O8: the control transfers and the key wait write `pc`, the skips by their condition, and every other
instruction keeps the advance of the fetch. A call or a return that faults leaves no running state. -/
theorem pcAfterEachInstruction : Obligations.PcAfterEachInstruction := by
  intro i s t running h still
  cases i with
  | call nnn =>
    obtain ⟨-, rfl⟩ | ⟨lt, rfl⟩ := exec_call_cases _ h
    · cases still
    · exact BitVec.toNat_setWidth_of_le (by decide)
  | ret =>
    obtain ⟨-, rfl⟩ | ⟨pos, lt, rfl⟩ := exec_ret_cases _ h
    · cases still
    · exact ⟨lt, pos, rfl⟩
  | jp nnn =>
    obtain rfl := Host.Outcome.next.inj h
    exact BitVec.toNat_setWidth_of_le (by decide)
  | jpOffset nnn x =>
    obtain rfl := Host.Outcome.next.inj h
    exact s.advance.offsetTarget_toNat nnn x
  | waitKey x =>
    obtain rfl := Host.Outcome.next.inj h
    exact s.advance_waitForKey_pc x
  | seImm | sneImm | seReg | sneReg | skp | sknp =>
    obtain rfl := Host.Outcome.next.inj h
    simp [State.advance_skipIf_pc]
  | _ =>
    obtain rfl := Host.Outcome.next.inj h
    simp [State.advance]

end Sys2Proof.Machine
end

section
/-! PROOFS. Code in memory: a stored word is the next fetched (spec/20_memory.md section 7), and the idle loop
(spec/70_reset_and_hazards.md section 4). -/

namespace Sys2Proof.Machine

/-- Memory after a word is placed at `pc`: its second byte at `pc + 1`, its first at `pc`, the old bytes elsewhere. -/
theorem State.withFetchWord_readByte {s : State} (wf : Memory.wf s.mem) (w b : Nat) :
    (s.withFetchWord 16 w).readByte b =
      if trunc12 (s.pc + 1).toNat = trunc12 b then (BitVec.ofNat 16 (w % 2 ^ 16)).extractLsb' 0 8
      else if trunc12 s.pc.toNat = trunc12 b then (BitVec.ofNat 16 (w % 2 ^ 16)).extractLsb' 8 8 else s.readByte b := by
  rw [State.withFetchWord, State.setFault_readByte, State.setSchedule_readByte,
    State.writeByte_readByte (State.writeByte_wf wf _ _), State.writeByte_readByte wf]

/-- The two bytes placed at `pc` and `pc + 1` are the two bytes fetched, also where `pc + 1` wraps (R43, R66). -/
theorem State.withFetchWord_fetchBytes {s : State} (wf : Memory.wf s.mem) (w : Nat) :
    (s.withFetchWord 16 w).fetchBytes = bytesOfWord (BitVec.ofNat 16 (w % 2 ^ 16)) := by
  have apart : ¬trunc12 (s.pc + 1).toNat = trunc12 s.pc.toNat := by
    simp only [trunc12, Config.memSize, BitVec.toNat_add, show (1 : Word).toNat = 1 from rfl]
    omega
  rw [State.fetchBytes, show (s.withFetchWord 16 w).pc = s.pc from rfl, State.withFetchWord_readByte wf,
    State.withFetchWord_readByte wf, if_neg apart, if_pos rfl, if_pos rfl]
  rfl

/-- Settles O9: with no event scheduled and no fault the step is a STEP, and it fetches the two bytes just stored. -/
theorem storedWordIsTheNextFetched : Obligations.StoredWordIsTheNextFetched := by
  intro s w i wf hw
  have decoded : ∃ rest, decode (s.withFetchWord 16 w).fetchBytes = .ok (i, rest) := by
    rw [State.withFetchWord_fetchBytes wf]
    unfold decodeTableWord at hw
    split at hw
    · next rest hd => exact ⟨rest, by rw [hd, Option.some.inj hw]⟩
    · cases hw
  obtain ⟨rest, decoded⟩ := decoded
  exact step_of_decoded (State.nextEvent_nil _ rfl) rfl decoded

/-- The bytes of an idle loop decode to the jump to `pc` (R190). -/
theorem State.idle_decode {s : State} (idle : s.idle) :
    decode s.fetchBytes = .ok (.jp (s.pc.setWidth 12), []) := by
  obtain ⟨le, high, low⟩ := idle
  have number : (encode (.jp (s.pc.setWidth 12))).toNat = 0x1000 + s.pc.toNat := by
    rw [encode, encodeNNN_toNat (by decide), BitVec.toNat_setWidth, Nat.mod_eq_of_lt (by omega)]
    rfl
  have bytes : s.fetchBytes = bytesOfWord (encode (.jp (s.pc.setWidth 12))) := by
    rw [State.fetchBytes, State.readByte_word_succ, high, low, bytesOfWord]
    congr 1
    · refine BitVec.eq_of_toNat_eq ?_
      simp [number, Nat.shiftRight_eq_div_pow]
      omega
    · congr 1
      refine BitVec.eq_of_toNat_eq ?_
      simp [number]
      omega
  rw [bytes, ← List.append_nil (bytesOfWord _), decode_bytesOfWord, decodeWord_encode rfl]
  rfl

/-- Settles O10: the STEP runs the jump to `pc`, which puts `pc` back where it was. -/
theorem idleLoopChangesNothing : Obligations.IdleLoopChangesNothing := by
  intro s event running idle
  have target : (s.pc.setWidth 12).setWidth 16 = s.pc := by
    refine BitVec.eq_of_toNat_eq ?_
    simp only [BitVec.toNat_setWidth]
    have := idle.1
    omega
  rw [step_of_decoded event running (State.idle_decode idle), exec_jp, target]
  rfl

end Sys2Proof.Machine
end

section
/-! PROOFS. The host's events (spec/60_exceptions.md, spec/70_reset_and_hazards.md): RESET, LOAD and the boot sequence,
TICK, TAKE_RENDER, what is left of them while the core is halted, and the outputs. -/

namespace Sys2Proof.Machine

variable {s t : State}

/-! ### Halted -/

/-- Settles O11: the three events ask for a running core first. -/
theorem haltedCoreHasNoStepTickOrLoad : Obligations.HaltedCoreHasNoStepTickOrLoad := by
  intro s c halted event
  have stop : ∀ o, s.popEvent.unlessHalted o = .fault (.halted c) := s.popEvent.unlessHalted_halted halted
  rcases event with event | event | ⟨bytes, offset, event⟩
  · rw [step_of_step s event]
    exact stop _
  · rw [step, event]
    exact stop _
  · rw [step, event]
    exact stop _

/-- Settles O12: of the events that need no running core only SET_KEY and TAKE_RENDER are no RESET. -/
theorem haltedCoreKeepsItsStateUntilReset : Obligations.HaltedCoreKeepsItsStateUntilReset := by
  intro s t halted noReset h
  cases step_case h with
  | reset c a event made => exact absurd ⟨c, a, event⟩ noReset
  | load bytes offset event running first made => exact absurd running halted
  | ran i rest event running decoded executed => exact absurd running halted
  | invalid e event running undecoded made => exact absurd running halted
  | tick event running made => exact absurd running halted
  | setKey k p event made => exact made ▸ rfl
  | takeRender event made => exact made ▸ rfl

/-! ### RESET, TAKE_RENDER and the outputs -/

/-- A step whose next event is a RESET, from every state. -/
theorem step_of_reset {c a : Bool} (event : s.nextEvent = .reset c a) : step s = .next (s.popEvent.resetEvent c a) := by
  rw [step, event]
  rfl

/-- The vectors of the reset state hold their one value everywhere (R27). -/
theorem State.resetWith_zero (c a : Bool) : (∀ r, (State.resetWith c a).reg r = 0) ∧
    (∀ row col, (State.resetWith c a).display.get row col = false) ∧ ∀ k, (State.resetWith c a).key k = false :=
  ⟨fun _ => Vector.getElem_replicate _, Display.get_clear, fun _ => Vector.getElem_replicate _⟩

/-- Settles O13: RESET keeps the draws and the schedule and nothing else of the state. -/
theorem resetMakesTheMachineAfresh : Obligations.ResetMakesTheMachineAfresh := by
  intro s c a event
  obtain ⟨registers, pixels, keys⟩ := State.resetWith_zero c a
  exact ⟨_, step_of_reset event, rfl, registers, rfl, rfl, rfl, rfl, fun _ => rfl, pixels, rfl, rfl, keys,
    rfl, rfl, rfl, rfl, rfl, rfl⟩

/-- Settles O18: the event is the read and the clear. -/
theorem takeRenderReadsAndClears : Obligations.TakeRenderReadsAndClears := by
  refine fun s => ⟨rfl, fun event => ?_⟩
  rw [step, event]
  rfl

theorem State.soundActive_iff (s : State) : s.soundActive = true ↔ 0 < s.ST.toNat := by
  rw [State.soundActive, bne_iff_ne, ne_eq, ← BitVec.toNat_inj, Nat.pos_iff_ne_zero]
  rfl

/-- Settles O19: the display is the output itself, and the five fault codes are those of the table. -/
theorem outputsFollowTheState : Obligations.OutputsFollowTheState := by
  refine fun s => ⟨rfl, s.soundActive_iff, ?_⟩
  cases s.fault with
  | none => rfl
  | some c => cases c <;> rfl

/-! ### LOAD -/

/-- A LOAD of a running core before its first STEP. -/
theorem step_of_load {bytes : List Byte} {offset : Nat} (event : s.nextEvent = .load bytes offset)
    (running : s.running) (first : s.started = false) : step s = .next (s.popEvent.loadImage bytes offset) := by
  have popped : s.popEvent.started = false := first
  rw [step, event]
  exact (s.popEvent.unlessHalted_running running _).trans (by simp [popped])

/-- A LOAD of a running core after its first STEP. -/
theorem step_of_load_started {bytes : List Byte} {offset : Nat} (event : s.nextEvent = .load bytes offset)
    (running : s.running) (started : s.started = true) : step s = .refused .loadAfterFirstStep := by
  have popped : s.popEvent.started = true := started
  rw [step, event]
  exact (s.popEvent.unlessHalted_running running _).trans (by simp [popped])

theorem State.loadImage_of_fits {bytes : List Byte} {offset : Nat} (fits : offset + bytes.length ≤ 4096) :
    s.loadImage bytes offset = s.storeBytes offset bytes := if_neg (Nat.not_lt.2 fits)

theorem State.loadImage_of_large {bytes : List Byte} {offset : Nat} (large : 4096 < offset + bytes.length) :
    s.loadImage bytes offset = s.setFault (some .romTooLarge) := if_pos large

/-- Everything a LOAD of an image that fits does: its bytes are at their places, every other byte and all other state
are as before (R181). -/
theorem step_of_load_fits {bytes : List Byte} {offset : Nat} (wf : Memory.wf s.mem)
    (event : s.nextEvent = .load bytes offset) (running : s.running) (first : s.started = false)
    (fits : offset + bytes.length ≤ 4096) :
    ∃ t, step s = .next t ∧ t = { s with mem := t.mem, schedule := s.schedule.tail } ∧ Memory.wf t.mem ∧
      (∀ i (h : i < bytes.length), t.readByte (offset + i) = bytes[i]) ∧ s.bytesUnchangedBut t offset bytes.length := by
  refine ⟨s.popEvent.storeBytes offset bytes, ?_, State.storeBytes_eq s.popEvent offset bytes,
    State.storeBytes_wf (s := s.popEvent) wf offset bytes,
    State.storeBytes_readByte (s := s.popEvent) wf offset bytes (le_trans (Nat.le_add_left _ _) fits),
    State.storeBytes_readByte_outside (s := s.popEvent) wf offset bytes⟩
  rw [step_of_load event running first, State.loadImage_of_fits fits]

/-- Settles O14: the three cases of LOAD on a running core. -/
theorem loadCopiesOrFaultsOrIsRefused : Obligations.LoadCopiesOrFaultsOrIsRefused := by
  intro s bytes offset wf event running
  refine ⟨fun first fits => ?_, fun first large => ?_, step_of_load_started event running⟩
  · obtain ⟨t, h, frame, -, inside, outside⟩ := step_of_load_fits wf event running first fits
    exact ⟨t, h, frame, inside, outside⟩
  · rw [step_of_load event running first, State.loadImage_of_large large]
    rfl

/-! ### The boot sequence (R182) -/

/-- RESET and then two LOADs of images that fit, the second above the first: both images are in memory, and the rest of
the state is that of the reset. -/
theorem run_reset_load_load {c a : Bool} {low high : List Byte} {base top : Nat}
    (schedule : s.schedule = [.reset c a, .load low base, .load high top]) (apart : base + low.length ≤ top)
    (fits : top + high.length ≤ 4096) :
    ∃ t, Host.Core.run Sys2Proof.core 3 s = .next t ∧
      t = { State.resetWith c a with mem := t.mem, draws := s.draws } ∧
      (∀ i (h : i < high.length), t.readByte (top + i) = high[i]) ∧
      ∀ i (h : i < low.length), t.readByte (base + i) = low[i] := by
  have reset := step_of_cons s schedule
  obtain ⟨u, loadLow, frameLow, wf, atLow, -⟩ := step_of_load_fits
    (s := (s.setSchedule [.load low base, .load high top]).resetEvent c a) Memory.wf_nil rfl rfl rfl (by omega)
  obtain ⟨t, loadHigh, frameHigh, -, atHigh, outside⟩ := step_of_load_fits (bytes := high) (offset := top) wf
    (by rw [frameLow]; rfl) (by rw [frameLow]; rfl) (by rw [frameLow]; rfl) fits
  refine ⟨t, ?_, ?_, atHigh, fun i h => ?_⟩
  · rw [run_succ 2 reset, run_succ 1 loadLow, run_succ 0 loadHigh]
    rfl
  · rw [frameHigh, frameLow]
    rfl
  · rw [← atLow i h]
    refine outside (base + i) fun k hk => ?_
    rw [trunc12_of_lt (by rw [Config.memSize]; omega), trunc12_of_lt (by rw [Config.memSize]; omega)]
    omega

theorem fontSet_length : fontSet.length = 80 := by decide

/-- Settles O15: the font lies below the program and the program fits, so the boot is a RESET and two LOADs of images
apart from each other. -/
theorem bootPlacesFontAndProgram : Obligations.BootPlacesFontAndProgram := by
  intro s c a rom boot fits
  have apart : Config.fontBase + fontSet.length ≤ Config.progBase := by rw [fontSet_length]; decide
  obtain ⟨t, run, rest, program, font⟩ := run_reset_load_load boot apart (Nat.add_le_add_left fits _)
  refine ⟨t, run, ?_, ?_, ?_, ?_, ?_, program, font, fontSet_length⟩
  all_goals
    rw [rest]
    rfl

/-! ### TICK -/

/-- Settles O16: by induction on the number of TICKs; each takes one off both timers and keeps the core running. -/
theorem ticksCountTheTimersDown : Obligations.TicksCountTheTimersDown := by
  intro n
  induction n with
  | zero => exact fun s es running schedule => ⟨s, rfl, rfl, rfl, by rw [← show s.schedule = es from schedule]⟩
  | succ n ih =>
    intro s es running schedule
    have tick : step s = .next ((s.setSchedule (List.replicate n .tick ++ es)).tickTimers) := by
      rw [step_of_cons s schedule]
      exact State.unlessHalted_running _ running _
    obtain ⟨t, run, dt, st, frame⟩ := ih (s.setSchedule (List.replicate n .tick ++ es)).tickTimers es running rfl
    refine ⟨t, (run_succ n tick).trans run, ?_, ?_, frame⟩
    · rw [dt, State.tickTimers, State.setST_DT, State.setDT_DT, tickDown_toNat, Nat.sub_sub, Nat.add_comm]
      rfl
    · rw [st, State.tickTimers, State.setST_ST, tickDown_toNat, Nat.sub_sub, Nat.add_comm]
      rfl

end Sys2Proof.Machine
end

section
/-! PROOFS. What instructions do not read (spec/10_state.md sections 2 and 3, spec/00_scope.md section 4): whichever of
`ST`, the display, the modes and the stack are replaced, an instruction that reads none of them does what it did
before. -/

namespace Sys2Proof.Machine

/-- The state with other contents in those of five parts for which new ones are given. -/
def State.patch (s : State) (st : Option Byte) (d : Option Display) (cosmac amiga : Option Bool)
    (stack : Option (Vector Word 16)) : State :=
  { s with
    ST := st.getD s.ST
    display := d.getD s.display
    cosmacMode := cosmac.getD s.cosmacMode
    amigaMode := amiga.getD s.amigaMode
    stack := stack.getD s.stack }

/-! ### The operations of several branches -/

section
variable (s : State) (st : Option Byte) (d : Option Display) (cosmac amiga : Option Bool)
  (stack : Option (Vector Word 16))

/-- A choice between two states, patched. -/
theorem State.patch_ite (c : Prop) [Decidable c] (u v : State) : (if c then u else v).patch st d cosmac amiga stack =
    if c then u.patch st d cosmac amiga stack else v.patch st d cosmac amiga stack :=
  apply_ite (fun u : State => u.patch st d cosmac amiga stack) c u v

theorem State.skipIf_patch (c : Bool) :
    (s.patch st d cosmac amiga stack).skipIf c = (s.skipIf c).patch st d cosmac amiga stack := by
  cases c <;> rfl

theorem State.storeBytes_patch (a : Nat) (bs : List Byte) :
    (s.patch st d cosmac amiga stack).storeBytes a bs = (s.storeBytes a bs).patch st d cosmac amiga stack := by
  induction bs generalizing s a with
  | nil => rfl
  | cons b bs ih => exact ih (s.writeByte a b) (a + 1)

theorem State.setLogic_patch (x : Reg) (r : Byte) :
    (s.patch st d none amiga stack).setLogic x r = (s.setLogic x r).patch st d none amiga stack := by
  unfold State.setLogic
  rw [State.patch_ite]
  rfl

theorem State.addToI_patch (x : Reg) :
    (s.patch st d cosmac none stack).addToI x = (s.addToI x).patch st d cosmac none stack := by
  unfold State.addToI
  rw [State.patch_ite, State.patch_ite]
  rfl

theorem State.waitPress_patch (x : Reg) :
    (s.patch st d cosmac amiga stack).waitPress x = (s.waitPress x).patch st d cosmac amiga stack := by
  unfold State.waitPress
  rw [show (s.patch st d cosmac amiga stack).lowestPressed = s.lowestPressed from rfl]
  cases s.lowestPressed <;> rfl

theorem State.waitRelease_patch (x : Reg) :
    (s.patch st d cosmac amiga stack).waitRelease x = (s.waitRelease x).patch st d cosmac amiga stack := by
  unfold State.waitRelease
  rw [show (s.patch st d cosmac amiga stack).lowestPressed = s.lowestPressed from rfl,
    show (s.patch st d cosmac amiga stack).latch = s.latch from rfl]
  cases s.latch with
  | none => cases s.lowestPressed <;> rfl
  | some j =>
    dsimp only
    rw [State.patch_ite]
    rfl

theorem State.waitForKey_patch (x : Reg) :
    (s.patch st d none amiga stack).waitForKey x = (s.waitForKey x).patch st d none amiga stack := by
  unfold State.waitForKey
  rw [State.patch_ite, State.waitRelease_patch, State.waitPress_patch]
  rfl

end

/-! ### The instructions -/

/-- The ten instructions gated by `cosmac_mode`. -/
def readsCosmac : Instr → Bool
  | .orReg _ _ | .andReg _ _ | .xorReg _ _ | .shr _ _ | .shl _ _ | .jpOffset _ _ | .drw _ _ _ | .waitKey _
  | .storeRegs _ | .loadRegs _ => true
  | _ => false

/-- The two instructions of the call stack. -/
def readsStack : Instr → Bool
  | .call _ | .ret => true
  | _ => false

/-- Patching parts an instruction does not read patches them in its next state, but for `ST` after `FX18` and the
display after `00E0`, and changes nothing else. -/
theorem exec_patch {i : Instr} {s t : State} (h : exec i s = .next t) {st : Option Byte} {d : Option Display}
    {cosmac amiga : Option Bool} {stack : Option (Vector Word 16)} (hd : ∀ x y n, i = .drw x y n → d = none)
    (hcosmac : readsCosmac i = true → cosmac = none) (hamiga : ∀ x, i = .addI x → amiga = none)
    (hstack : readsStack i = true → stack = none) :
    exec i (s.patch st d cosmac amiga stack) = .next (t.patch (match i with | .setST _ => none | _ => st)
      (match i with | .cls => none | _ => d) cosmac amiga stack) := by
  cases i with
  | call nnn =>
    obtain rfl := hstack rfl
    obtain ⟨full, rfl⟩ | ⟨lt, rfl⟩ := exec_call_cases s h
    · exact exec_call_of_full (s.patch st d cosmac amiga none) nnn full
    · exact exec_call_of_lt (s.patch st d cosmac amiga none) nnn lt
  | ret =>
    obtain rfl := hstack rfl
    obtain ⟨empty, rfl⟩ | ⟨pos, lt, rfl⟩ := exec_ret_cases s h
    · exact exec_ret_of_empty (s.patch st d cosmac amiga none) empty
    · exact (exec_ret_of_pos (s.patch st d cosmac amiga none) pos).2
  | seImm | sneImm | seReg | sneReg | skp | sknp =>
    obtain rfl := Host.Outcome.next.inj h
    exact congrArg _ (State.skipIf_patch ..)
  | orReg | andReg | xorReg =>
    obtain rfl := Host.Outcome.next.inj h
    obtain rfl := hcosmac rfl
    exact congrArg _ (State.setLogic_patch ..)
  | shr | shl | jpOffset | loadRegs =>
    obtain rfl := Host.Outcome.next.inj h
    obtain rfl := hcosmac rfl
    rfl
  | drw x y n =>
    obtain rfl := Host.Outcome.next.inj h
    obtain rfl := hcosmac rfl
    obtain rfl := hd x y n rfl
    rfl
  | waitKey =>
    obtain rfl := Host.Outcome.next.inj h
    obtain rfl := hcosmac rfl
    exact congrArg _ (State.waitForKey_patch ..)
  | addI x =>
    obtain rfl := Host.Outcome.next.inj h
    obtain rfl := hamiga x rfl
    exact congrArg _ (State.addToI_patch ..)
  | storeBcd x =>
    obtain rfl := Host.Outcome.next.inj h
    exact congrArg _ (State.storeBytes_patch ..)
  | storeRegs x =>
    obtain rfl := Host.Outcome.next.inj h
    obtain rfl := hcosmac rfl
    exact congrArg (fun u : State => Host.Outcome.next (u.setI (s.blockNextI x))) (State.storeBytes_patch ..)
  | _ =>
    obtain rfl := Host.Outcome.next.inj h
    rfl

/-- Settles O29: `ST` is written by `FX18` alone and read by none, the display read by `DXYN` alone. -/
theorem soundTimerAndDisplayAreNotRead : Obligations.SoundTimerAndDisplayAreNotRead := by
  intro i s
  obtain ⟨t, h⟩ := exec_next i s
  refine ⟨fun v => ⟨t, h, ?_⟩, fun d noDraw => ⟨t, h, ?_⟩⟩
  · refine (exec_patch h (st := some v) (fun _ _ _ _ => rfl) (fun _ => rfl) (fun _ _ => rfl) fun _ => rfl).trans ?_
    cases i <;> rfl
  · refine (exec_patch h (st := none) (d := some d) (fun x y n draw => absurd draw (noDraw x y n)) (fun _ => rfl)
      (fun _ _ => rfl) fun _ => rfl).trans ?_
    cases i <;> rfl

/-- Settles O30: the gated instructions are the ten and `FX1E`. -/
theorem modesAreReadOnlyByGatedInstructions : Obligations.ModesAreReadOnlyByGatedInstructions := by
  intro i s m
  obtain ⟨t, h⟩ := exec_next i s
  refine ⟨fun noAlu noJump noDraw noBlock => ⟨t, h, ?_⟩, fun noAddI => ⟨t, h, ?_⟩⟩
  · have ungated : readsCosmac i = false := by cases i <;> simp_all [readsCosmac]
    refine (exec_patch h (st := none) (d := none) (cosmac := some m) (fun _ _ _ _ => rfl) (by simp [ungated])
      (fun _ _ => rfl) fun _ => rfl).trans ?_
    cases i <;> rfl
  · refine (exec_patch h (st := none) (d := none) (amiga := some m) (fun _ _ _ _ => rfl) (fun _ => rfl)
      (fun x add => absurd add (noAddI x)) fun _ => rfl).trans ?_
    cases i <;> rfl

/-! ### Stale stack entries -/

/-- The state and the one with another stack have next states that differ only in entries at and above the new depth. -/
def KeepsStaleEntriesApart (i : Instr) (s : State) (st : Vector Word 16) : Prop :=
  ∃ t u, exec i s = .next t ∧ exec i { s with stack := st } = .next u ∧ u = { t with stack := u.stack } ∧
    ∀ k (h : k < 16), k < t.sp.val → u.stack[k] = t.stack[k]

section
variable {s : State} {st : Vector Word 16} (agree : ∀ k (h : k < 16), k < s.sp.val → st[k] = s.stack[k])
include agree

/-- A call writes the one entry that becomes valid in both states, and the same value. -/
theorem call_keepsStaleEntriesApart (nnn : Addr) : KeepsStaleEntriesApart (.call nnn) s st := by
  by_cases lt : s.sp.val < 16
  · refine ⟨_, _, exec_call_of_lt s nnn lt, exec_call_of_lt { s with stack := st } nnn lt, rfl, fun k hk below => ?_⟩
    have below : k < s.sp.val + 1 := below
    simp only [State.setPc_stack, State.setStack_stack, Vector.getElem_set]
    split
    · rfl
    · exact agree k hk (by omega)
  · have full : s.sp.val = 16 := by have : s.sp.val < 17 := s.sp.isLt; omega
    exact ⟨_, _, exec_call_of_full s nnn full, exec_call_of_full { s with stack := st } nnn full, rfl, agree⟩

/-- A return reads a valid entry. -/
theorem ret_keepsStaleEntriesApart : KeepsStaleEntriesApart .ret s st := by
  by_cases pos : 0 < s.sp.val
  · obtain ⟨lt, h⟩ := exec_ret_of_pos s pos
    obtain ⟨_, h'⟩ := exec_ret_of_pos { s with stack := st } pos
    have top : st[s.sp.val - 1] = s.stack[s.sp.val - 1] := agree _ lt (by omega)
    refine ⟨_, _, h, h', ?_, fun k hk below => agree k hk (lt_of_lt_of_le below (Nat.sub_le _ _))⟩
    simp only [top]
    rfl
  · have empty : s.sp.val = 0 := by omega
    exact ⟨_, _, exec_ret_of_empty s empty, exec_ret_of_empty { s with stack := st } empty, rfl, agree⟩

/-- Every other instruction leaves both stacks as they are. -/
theorem keepsStaleEntriesApart_of_not_readsStack {i : Instr} (hi : readsStack i = false) :
    KeepsStaleEntriesApart i s st := by
  obtain ⟨t, h⟩ := exec_next i s
  have patched := exec_patch h (st := none) (d := none) (cosmac := none) (amiga := none) (stack := some st)
    (fun _ _ _ _ => rfl) (fun _ => rfl) (fun _ _ => rfl) (by simp [hi])
  obtain ⟨depth, same⟩ | ⟨⟨nnn, rfl⟩, -⟩ | ⟨rfl, -⟩ := exec_stack h
  · refine ⟨t, { t with stack := st }, h, patched.trans (by cases i <;> rfl), rfl, fun k hk below => ?_⟩
    rw [depth] at below
    exact (agree k hk below).trans (by rw [same])
  · cases hi
  · cases hi

end

/-- Settles O31: the two instructions of the stack look at valid entries only, the others at none. -/
theorem staleStackEntriesAreUnobservable : Obligations.StaleStackEntriesAreUnobservable := by
  intro i s st agree
  cases hi : readsStack i with
  | false => exact keepsStaleEntriesApart_of_not_readsStack agree hi
  | true =>
    cases i with
    | call nnn => exact call_keepsStaleEntriesApart agree nnn
    | ret => exact ret_keepsStaleEntriesApart agree
    | _ => cases hi

end Sys2Proof.Machine
end

section
/-! PROOFS. Calls, returns, skips and offset jumps (spec/40_flow.md). -/

namespace Sys2Proof.Machine

/-- Settles O33: below 16 entries the call is a push of the advanced `pc` and a jump. -/
theorem callPushesTheAdvancedPc : Obligations.CallPushesTheAdvancedPc := fun nnn s h =>
  ⟨_, exec_call_of_lt s nnn h, BitVec.toNat_setWidth_of_le (by decide), rfl, Vector.getElem_set_self h,
    fun _ hk other => Vector.getElem_set_ne h hk other.symm, rfl, fun _ => rfl⟩

/-- Settles O34: with entries the return is a pop into `pc`. -/
theorem returnPopsIntoPc : Obligations.ReturnPopsIntoPc := by
  intro s pos
  obtain ⟨lt, h⟩ := exec_ret_of_pos s pos
  exact ⟨_, lt, h, rfl, Nat.sub_add_cancel pos, rfl, fun _ => rfl⟩

/-- Settles O35: the entry the return pops is the one the call pushed. -/
theorem returnGoesBackBehindTheCall : Obligations.ReturnGoesBackBehindTheCall := by
  intro nnn s u below later
  obtain ⟨stack, depth⟩ := later _ (exec_call_of_lt s nnn below)
  have depth : u.sp.val = s.sp.val + 1 := congrArg Fin.val depth
  obtain ⟨lt, h⟩ := exec_ret_of_pos u (by omega)
  refine ⟨_, h, ?_, Fin.ext (by simp [depth])⟩
  simp [stack, depth]

/-- Settles O37: the skip is one write of `pc`. -/
theorem skipAddsTwoToPc : Obligations.SkipAddsTwoToPc := fun s =>
  ⟨BitVec.toNat_add s.pc 2, rfl, s.skip_readByte⟩

/-- Settles O38: the jump is one write of `pc`, with the target of the mode. -/
theorem offsetJumpAddsItsRegister : Obligations.OffsetJumpAddsItsRegister := by
  intro nnn x s
  refine ⟨encodeNNN_toNat (by decide) nnn, _, exec_jpOffset s nnn x, fun cosmac => ?_, fun plain => ?_, rfl,
    fun _ => rfl⟩
  · rw [State.setPc_pc, State.offsetTarget_toNat, if_pos cosmac]
  · rw [State.setPc_pc, State.offsetTarget_toNat, if_neg (by simp [plain])]

end Sys2Proof.Machine
end

section
/-! PROOFS. The shifts and the random byte (spec/41_alu.md). -/

namespace Sys2Proof.Machine

/-- Settles O44: a result and a flag, both of the register the mode selects. -/
theorem shiftsPutTheBitOutIntoFlag : Obligations.ShiftsPutTheBitOutIntoFlag := by
  rintro x y s v rfl
  refine ⟨⟨_, exec_shr s x y, s.setResultFlag_writes_only x ?_ (shiftedOutLow_toNat _)⟩,
    ⟨_, exec_shl s x y, s.setResultFlag_writes_only x ?_ (shiftedOutHigh_toNat _)⟩⟩
  · exact (BitVec.toNat_ushiftRight ..).trans (Nat.shiftRight_eq_div_pow _ 1)
  · rw [BitVec.toNat_shiftLeft, Nat.shiftLeft_eq]
    rfl

/-- Settles O45: the masked draw is one register write, and the draw is spent. -/
theorem randomIsMaskedByImmediate : Obligations.RandomIsMaskedByImmediate := by
  intro x kk s
  obtain ⟨written, others, -, bytes⟩ := s.setReg_writes_only x (s.rand &&& kk)
  refine ⟨_, exec_rnd s x kk, fun k _ => ?_, rfl, others, rfl, bytes⟩
  rw [State.nextDraw_reg, written, BitVec.getLsbD_and]
  rfl

end Sys2Proof.Machine
end

section
/-! PROOFS. The index register and memory (spec/42_index_memory.md): sums and glyphs in `I`, and the block copies. -/

namespace Sys2Proof.Machine

/-- Settles O47: what the clamped addition leaves in `I` and in the registers. -/
theorem addToIndexClampsAtFFF : Obligations.AddToIndexClampsAtFFF := by
  intro x s
  refine ⟨_, exec_addI s x, s.addToI_I_toNat x, fun overflow => ?_, fun fits => ?_, fun r hr => ?_, s.addToI_eq x,
    s.addToI_readByte x⟩
  · rw [State.addToI_reg, if_pos ⟨rfl, overflow⟩]
  · rw [State.addToI_reg, if_neg fun h => fits h.2]
  · rw [State.addToI_reg, if_neg fun h => List.ne_of_not_mem_cons hr h.1]

/-- Settles O48: the load is one write of `I`, with the glyph's address. -/
theorem fontAddressIsFiveBytesPerGlyph : Obligations.FontAddressIsFiveBytesPerGlyph := by
  intro x s
  have address := glyphAddr_toNat (s.reg x)
  exact ⟨_, exec_ldFont s x, address, by rw [State.setI_I]; omega, rfl, fun _ => rfl⟩

/-- What `I` is after a block copy, mode by mode (R124, R125). -/
theorem State.blockNextI_modes (s : State) (x : Reg) :
    (s.cosmacMode = true → (s.blockNextI x).toNat = (s.I.toNat + x.val + 1) % 4096) ∧
      (s.cosmacMode = false → s.blockNextI x = s.I) := by
  refine ⟨fun cosmac => ?_, fun plain => BitVec.eq_of_toNat_eq ?_⟩
  · rw [State.blockNextI_toNat, if_pos cosmac]
  · rw [State.blockNextI_toNat, if_neg (by simp [plain])]

/-- Settles O49: the three digits are a block of three bytes. -/
theorem bcdStoresThreeDigits : Obligations.BcdStoresThreeDigits := by
  intro x s wf
  have digits : ∀ k (hk : k < 3), (s.storeBytes (s.blockAddr 0) (bcdDigits (s.reg x))).readByte (s.blockAddr k) =
      (bcdDigits (s.reg x))[k] :=
    State.storeBytes_readByte wf (s.blockAddr 0) (bcdDigits (s.reg x)) (Nat.le_add_left 3 _)
  have small : (s.reg x).toNat < 256 := (s.reg x).isLt
  refine ⟨_, exec_storeBcd s x, ?_, ?_, ?_, State.storeBytes_readByte_outside wf _ (bcdDigits (s.reg x)),
    State.storeBytes_eq s _ _, State.storeBytes_wf wf _ _⟩
  · rw [digits 0 (by decide)]
    exact Nat.mod_eq_of_lt (by omega)
  · rw [digits 1 (by decide)]
    exact Nat.mod_eq_of_lt (by omega)
  · rw [digits 2 (by decide)]
    exact Nat.mod_eq_of_lt (by omega)

/-- What the register store leaves at the address of each register it stores (R124). -/
theorem State.storeRegs_readByte {s : State} (wf : Memory.wf s.mem) {x r : Reg} (h : r ≤ x) :
    (s.storeBytes (s.blockAddr 0) (s.regsUpTo x)).readByte (s.blockAddr r.val) = s.reg r := by
  have length := s.regsUpTo_length x
  have inside : r.val < (s.regsUpTo x).length := by rw [length]; exact Nat.lt_succ_of_le h
  rw [show s.blockAddr r.val = s.blockAddr 0 + r.val from rfl, State.storeBytes_readByte wf _ _ (by
    rw [length, Config.memSize]; have := x.isLt; omega) _ inside, State.regsUpTo_getElem]

/-- Settles O50: the registers are a block of `x + 1` bytes, and `I` is written after it. -/
theorem storeRegistersWritesTheBlock : Obligations.StoreRegistersWritesTheBlock := by
  intro x s wf
  obtain ⟨cosmac, plain⟩ := s.blockNextI_modes x
  have outside := State.storeBytes_readByte_outside wf (s.blockAddr 0) (s.regsUpTo x)
  rw [State.regsUpTo_length] at outside
  refine ⟨_, exec_storeRegs s x, fun r => State.storeRegs_readByte wf, outside, cosmac, plain, ?_,
    State.storeBytes_wf wf _ _⟩
  rw [State.storeBytes_eq]
  rfl

/-- A write of all registers and of `I`: nothing else changes. -/
theorem State.setRegs_setI_writes_only (s : State) (vs : Vector Byte 16) (v : Word) :
    let t := (s.setRegs vs).setI v
    t = { s with V := t.V, I := t.I } ∧ s.bytesUnchanged t :=
  ⟨rfl, fun _ => rfl⟩

/-- Settles O51: the registers up to `x` take the block's bytes, and `I` is written after it. -/
theorem loadRegistersReadsTheBlock : Obligations.LoadRegistersReadsTheBlock := by
  intro x s
  obtain ⟨cosmac, plain⟩ := s.blockNextI_modes x
  refine ⟨_, exec_loadRegs s x, fun r h => ?_, fun r h => ?_, cosmac, plain, s.setRegs_setI_writes_only _ _⟩
  · rw [State.setI_reg, State.setRegs_regsLoaded_reg, if_pos h]
  · rw [State.setI_reg, State.setRegs_regsLoaded_reg, if_neg (not_le.2 h)]

/-- Settles O52: the load reads the addresses the store wrote, from the memory the store left. -/
theorem loadAfterStoreGivesTheRegistersBack : Obligations.LoadAfterStoreGivesTheRegistersBack := by
  intro x s t u wf stored mem index
  obtain rfl := Host.Outcome.next.inj stored
  refine ⟨_, exec_loadRegs u x, fun r h => ?_⟩
  have address : u.blockAddr r.val = s.blockAddr r.val := congrArg (BitVec.toNat · + r.val) index
  rw [State.setI_reg, State.setRegs_regsLoaded_reg, if_pos h, ← State.storeRegs_readByte wf h, address, State.readByte,
    mem]
  rfl

end Sys2Proof.Machine
end

section
/-! PROOFS. The display (spec/43_display.md). -/

namespace Sys2Proof.Machine

/-- Settles O53: the cleared display is dark everywhere. -/
theorem clearDisplayZeroesEveryPixel : Obligations.ClearDisplayZeroesEveryPixel := fun s =>
  ⟨_, exec_cls s, Display.get_clear, rfl, rfl, fun _ => rfl⟩

/-- A drawn sprite is XORed onto the display, and the collision is a lit pixel that it covers (R131, R132). -/
theorem State.drawSprite_spec (s : State) (x0 y0 : Nat) (n : Fin 16) :
    (∀ row col, (s.drawSprite x0 y0 n.val).1.get row col = true ↔
      (s.display.get row col = true ↔ ¬s.spriteCovers x0 y0 n.val row col)) ∧
    ((s.drawSprite x0 y0 n.val).2 = true ↔
      ∃ row col, s.display.get row col = true ∧ s.spriteCovers x0 y0 n.val row col) := by
  obtain ⟨pixels, collision⟩ := drawPixels _ (s.spritePixels_nodup x0 y0 n.val n.isLt) s.display false
  simp only [← State.mem_spritePixels, State.drawSprite_eq]
  refine ⟨fun row col => ?_, by simpa using collision⟩
  rw [pixels]
  cases s.display.get row col <;> simp

/-- Settles O54: the drawn display, the collision in `VF`, written last, and the render bit. -/
theorem drawIsXorWithThePlacedSprite : Obligations.DrawIsXorWithThePlacedSprite := by
  rintro x y n s x0 y0 rfl rfl
  obtain ⟨pixels, collision⟩ := s.drawSprite_spec (s.spriteColumn x) (s.spriteRow y) n
  refine ⟨_, exec_drw s x y n, pixels, ?_, ?_, rfl, fun r hr => ?_, rfl, fun _ => rfl⟩
  · rw [State.setRender_reg, State.setReg_reg, if_pos rfl, flagByte_eq_one]
    exact collision
  · rw [State.setRender_reg, State.setReg_reg, if_pos rfl, flagByte_eq_zero, ← Bool.not_eq_true]
    exact not_congr collision
  · rw [State.setRender_reg, State.setReg_reg, if_neg (List.ne_of_not_mem_cons hr)]
    rfl

/-- An XOR with the same pixel twice. -/
theorem iff_not_iff_not {a p : Prop} : ((a ↔ ¬p) ↔ ¬p) ↔ a := by tauto

/-- After an XOR a covered pixel is lit exactly when it was dark and is lit. -/
theorem iff_not_and {a p : Prop} : (a ↔ ¬p) ∧ p ↔ ¬a ∧ (a ↔ ¬p) := by tauto

/-- Settles O55: the second sprite covers the pixels of the first, so its XOR undoes the first one's, and the pixels it
finds lit are those the first one lit. -/
theorem drawingTwiceRestoresTheDisplay : Obligations.DrawingTwiceRestoresTheDisplay := by
  intro x y n s t u hx hy first second
  obtain ⟨t', first', lit, -, -, -, others, frame, -⟩ := drawIsXorWithThePlacedSprite x y n s _ _ rfl rfl
  obtain rfl := Host.Outcome.next.inj (first.symm.trans first')
  obtain ⟨u', second', lit', flag, -⟩ := drawIsXorWithThePlacedSprite x y n t _ _ rfl rfl
  obtain rfl := Host.Outcome.next.inj (second.symm.trans second')
  have covers : ∀ row col, t.spriteCovers ((t.reg x).toNat % 64) ((t.reg y).toNat % 32) n.val row col ↔
      s.spriteCovers ((s.reg x).toNat % 64) ((s.reg y).toNat % 32) n.val row col := fun row col => by
    rw [others x (by simpa using hx), others y (by simpa using hy), frame]
    exact Iff.rfl
  simp only [covers] at lit' flag
  refine ⟨Display.ext_get fun row col => ?_, flag.trans (exists_congr fun row => exists_congr fun col => ?_)⟩
  · rw [Bool.eq_iff_iff, lit', lit, iff_not_iff_not]
  · rw [lit, ← Bool.not_eq_true, iff_not_and]

end Sys2Proof.Machine
end

section
/-! PROOFS. The key wait and the timer copies (spec/44_keys_timers.md). -/

namespace Sys2Proof.Machine

variable {s : State}

/-! ### The key wait, mode by mode (R142) -/

theorem exec_waitKey_press (plain : s.cosmacMode = false) (x : Reg) {k : Key} (lowest : s.lowestPressed = some k) :
    exec (.waitKey x) s = .next (s.setReg x (BitVec.ofNat 8 k.val)) := by
  simp [State.waitForKey, State.waitPress, plain, lowest]

theorem exec_waitKey_no_press (plain : s.cosmacMode = false) (x : Reg) (noKey : s.lowestPressed = none) :
    exec (.waitKey x) s = .next s.respin := by
  simp [State.waitForKey, State.waitPress, plain, noKey]

section
variable (cosmac : s.cosmacMode = true) (x : Reg)
include cosmac

theorem exec_waitKey_unlatched (free : s.latch = none) (noKey : s.lowestPressed = none) :
    exec (.waitKey x) s = .next s.respin := by
  simp [State.waitForKey, State.waitRelease, cosmac, free, noKey]

theorem exec_waitKey_latches (free : s.latch = none) {k : Key} (lowest : s.lowestPressed = some k) :
    exec (.waitKey x) s = .next (s.setLatch (some k)).respin := by
  simp [State.waitForKey, State.waitRelease, cosmac, free, lowest]

theorem exec_waitKey_held {j : Key} (held : s.latch = some j) (down : s.key j = true) :
    exec (.waitKey x) s = .next s.respin := by
  simp [State.waitForKey, State.waitRelease, cosmac, held, down]

theorem exec_waitKey_released {j : Key} (held : s.latch = some j) (up : s.key j = false) :
    exec (.waitKey x) s = .next ((s.setReg x (BitVec.ofNat 8 j.val)).setLatch none) := by
  simp [State.waitForKey, State.waitRelease, cosmac, held, up]

end

/-- A key's index fits a register. -/
theorem key_toNat (k : Key) : (BitVec.ofNat 8 k.val).toNat = k.val := by
  have := k.isLt
  rw [BitVec.toNat_ofNat]
  omega

/-- Settles O57: the wait ends with the lowest pressed key, or goes back to the instruction. -/
theorem keyWaitTakesTheLowestPressedKey : Obligations.KeyWaitTakesTheLowestPressedKey := by
  refine fun x s plain => ⟨fun k pressed lower => ?_, fun noKey => ?_⟩
  · obtain ⟨written, frame⟩ := s.setReg_writes_only x (BitVec.ofNat 8 k.val)
    exact ⟨_, exec_waitKey_press plain x ((s.lowestPressed_eq_some k).2 ⟨pressed, lower⟩),
      by rw [written, key_toNat], frame⟩
  · rw [exec_waitKey_no_press (s := s.advance) plain x ((s.advance.lowestPressed_eq_none).2 noKey),
      State.advance_respin]
    rfl

/-- Settles O58: without a latch the wait latches or goes on, with one it goes on or ends. -/
theorem cosmacKeyWaitLatchesThenTakesTheRelease : Obligations.CosmacKeyWaitLatchesThenTakesTheRelease := by
  intro x s cosmac
  refine ⟨fun free noKey => ?_, fun free k pressed lower => ?_, fun j held down => ?_, fun j held up => ?_⟩
  · rw [exec_waitKey_unlatched (s := s.advance) cosmac x free ((s.advance.lowestPressed_eq_none).2 noKey),
      State.advance_respin]
    rfl
  · rw [exec_waitKey_latches (s := s.advance) cosmac x free ((s.advance.lowestPressed_eq_some k).2 ⟨pressed, lower⟩)]
    exact congrArg (fun u : State => Host.Outcome.next (u.setLatch (some k))) s.advance_respin
  · rw [exec_waitKey_held (s := s.advance) cosmac x held down, State.advance_respin]
    rfl
  · obtain ⟨written, others, -, bytes⟩ := s.setReg_writes_only x (BitVec.ofNat 8 j.val)
    exact ⟨_, exec_waitKey_released cosmac x held up, by rw [State.setLatch_reg, written, key_toNat], rfl, others, rfl,
      bytes⟩

/-- Settles O59: each copy is one write. -/
theorem timerCopiesGoOneWay : Obligations.TimerCopiesGoOneWay := fun x s =>
  ⟨encodeX_toNat (by decide) x, encodeX_toNat (by decide) x, encodeX_toNat (by decide) x,
    ⟨_, exec_readDT s x, s.setReg_writes_only x s.DT⟩, rfl, rfl⟩

end Sys2Proof.Machine
end
